-- ==== Sys2Proof/Word.lean ====
section
/-! DEFINITION. The value types of the core: the 16-bit unit of every register, stack element and grid cell
(20_memory R60), the 16-bit operand field and the 40-bit instruction word of format T (30_encoding R81). -/

namespace Sys2Proof

/-- A 16-bit unsigned value, the unit of every datapath access (00_scope R8, R11; 20_memory R60). -/
abbrev Word := BitVec 16

/-- An operand field of an instruction: `a` or `b`, 16 bits (30_encoding R81). -/
abbrev Field := BitVec 16

/-- One program-store entry, the 40-bit word `{op, a, b}` of format T (30_encoding R81). -/
abbrev InstrWord := BitVec 40

end Sys2Proof
end

