-- ==== Sys2Proof/Config.lean ====
section
/-! DEFINITION. The parameters fixed when the core is constructed (00_scope R9, R10) and the one value the spec
gives no meaning to. -/

namespace Sys2Proof

/-- The operand dialect (00_scope R2, R9, R14). -/
inductive Dialect where
  /-- `STACK_OPERANDS` (CFG[0] = 0). -/
  | stack
  /-- `REGISTER_OPERANDS` (CFG[0] = 1). -/
  | register
deriving DecidableEq, Repr

/-- The construction-time parameters of 00_scope R9, other than the program, whose length is `L`. -/
structure Config where
  /-- `DIALECT`. -/
  dialect : Dialect
  /-- `N`, the side of both grids. -/
  n : Nat
  /-- `XOR_IN_REGISTER_DIALECT`. -/
  xorInRegister : Bool
  /-- `STACK_CAPACITY`; `none` is ∞. -/
  stackCapacity : Option Nat
deriving DecidableEq, Repr

/-- The largest legal program length and grid side (00_scope R9; 92 D5, D23). -/
def Config.maxSize : Nat := 65536

/-- The configuration of `State.reset`. R9 gives defaults for `XOR_IN_REGISTER_DIALECT` (true) and
`STACK_CAPACITY` (∞) only.
DESIGN CHOICE (unsafe, log entries 1 and 2): the register dialect and N = 16. -/
def Config.default : Config :=
  { dialect := .register, n := 16, xorInRegister := true, stackCapacity := none }

/-- The configuration string of 00_scope R3. -/
def Config.name (c : Config) : String :=
  match c.dialect with
  | .stack => "htm16-S-N" ++ toString c.n
  | .register => "htm16-R-N" ++ toString c.n ++ (if c.xorInRegister then "" else "-noxor")

/-- FREE VALUE (log entry 18): what a host reads from CFG_STACK_CAPACITY when the stack is unbounded. 10_state R33
gives the register "no meaning" then. Nothing constrains this number. -/
opaque Config.unboundedCapacityReading : Nat

end Sys2Proof
end

