-- ==== Sys2Proof/Machine/State.lean ====
section
/-! DEFINITION. The state of the core (10_state R20), the reasons a step can stop, and the state after reset
(10_state R37; 70_reset_and_hazards R240). -/

namespace Sys2Proof.Machine

/-- The six fault kinds of 60_exceptions R200. A fault is an effect of the step, not a stop of the model: the step that
raises it answers a next state with the fault record written (R205). -/
inductive FaultKind where
  /-- A step with no injected instruction while `x[0] ≥ L` (R201). -/
  | haltedMachine
  /-- An opcode not decodable in the configured dialect (R202). -/
  | unrecognizedInstruction
  /-- A register-role operand outside [0, 7] (R203). -/
  | registerOutOfRange
  /-- A pop from an empty stack, or an indexed access at or above `len(S)` (R204). -/
  | stackUnderflow
  /-- A grid coordinate at or above N (R207). -/
  | gridOutOfBounds
  /-- A push onto a full stack of finite capacity (R208). -/
  | stackOverflow
deriving DecidableEq, Repr

/-- The ways the model itself stops with a fault: none. Every fault of the spec has a described entry (60_exceptions
R205), which a step takes as a next state, so no constructor is needed (safe: the step answers a next state for every
state; log entry 5). -/
inductive Fault where
deriving DecidableEq, Repr

/-- The ways the model refuses an instruction. -/
inductive Refusal where
  /-- Raised only by an arm of `exec` whose instruction has no meaning yet; no arm raises it (safe). -/
  | notModelled (mnemonic : String)
deriving DecidableEq, Repr

/-- Cells of 16 bits by key, in one canonical form: keys strictly rising, no cell equal to 0, the value an unlisted
cell reads as (10_state R34). Keys of a grid are row-major, see `gridKey`. -/
abbrev Memory := List (Nat × Word)

/-- The state of the core, 10_state R20. -/
structure State where
  /-- The register file `x[0..7]` (R21). -/
  regs : Vector Word 8
  /-- The stack `S`, bottom first: `S[i]` is element `i` (R29; 20_memory R53). -/
  stack : List Word
  /-- The diagnostic counter `tos` (R28). -/
  tos : Nat
  /-- The output grid, N × N cells (R34). -/
  gridOut : Memory
  /-- `FAULTED` of the fault record (R33). -/
  faulted : Bool
  /-- `FAULT_CODE` of the fault record (R33; 60_exceptions R200). -/
  faultCode : BitVec 3
  /-- The program store; its length is `L` (R36). -/
  prog : List InstrWord
  /-- The input grid, N × N cells (R35). -/
  gridIn : Memory
  /-- The construction-time configuration (00_scope R9). -/
  config : Config
  /-- THE MODEL'S OWN FIELD (log entry 7): the instruction the host supplies with the next step request
  (40_step_cycle R103), or none. The step consumes it. -/
  supplied : Option InstrWord
deriving DecidableEq, Repr

/-- The state Construct leaves (10_state R37; 70_reset_and_hazards R240) for a configuration, a program and an input
grid. -/
def State.initial (c : Config) (prog : List InstrWord) (gridIn : Memory) : State :=
  { regs := #v[0, 0, 0, 0, 0, 0, 0, 0]
    stack := []
    tos := 0
    gridOut := []
    faulted := false
    faultCode := 0
    prog := prog
    gridIn := gridIn
    config := c
    supplied := none }

/-- The machine right after reset, with nothing supplied by the host: no program and an all-zero input grid.
DESIGN CHOICE (unsafe, log entries 1, 2 and 4): the configuration and the empty program are the model's. -/
def State.reset : State := State.initial Config.default [] []

end Sys2Proof.Machine
end

