-- ==== Sys2Proof/Machine/Flags.lean ====
section
/-! DEFINITION. The core has no status flags and no condition codes (10_state R31). What stands in their place: a
comparison delivers the value 0 or 1, and JUMPIF tests a value for equality with 0. -/

namespace Sys2Proof.Machine

/-- `bool(c)` as a 16-bit value (00_scope R11). -/
def boolWord (c : Bool) : Word := if c then 1 else 0

/-- JUMPIF's test of a condition value (42_control R140). -/
def conditionZero (c : Word) : Bool := c == 0

end Sys2Proof.Machine
end

