-- ==== Sys2Proof/Machine/Ops.lean ====
section
/-! DEFINITION. The named operations over registers, stack and grids (00_scope R12; 20_memory; 44_grid_io R180), the
halt test, and taking a fault (60_exceptions R205). There is no return from a fault to model (R211). -/

namespace Sys2Proof.Machine

/-! ### Register file (10_state R21, R30) -/

/-- `x[r]`. -/
def State.reg (s : State) (r : Fin 8) : Word := s.regs[r]

/-- `x[r] <- v`. No register is hardwired, register 0 included (10_state R21, R22). -/
def State.setReg (s : State) (r : Fin 8) (v : Word) : State := { s with regs := s.regs.set r v }

/-- The program counter, `x[0]` (10_state R22). -/
def State.pc (s : State) : Word := s.reg 0

/-- `pc <- (x[0] + 1) mod 65536` (40_step_cycle R109). -/
def State.advancePc (s : State) : State := s.setReg 0 (s.pc + 1)

/-- The machine is runnable: `x[0] < L` (40_step_cycle R101). -/
def State.runnable (s : State) : Bool := decide (s.pc.toNat < s.prog.length)

/-! ### Faults (60_exceptions R200, R205) -/

/-- The fault codes of 60_exceptions R200. -/
def FaultKind.code : FaultKind → BitVec 3
  | .haltedMachine => 1
  | .unrecognizedInstruction => 2
  | .registerOutOfRange => 3
  | .stackUnderflow => 4
  | .gridOutOfBounds => 5
  | .stackOverflow => 6

/-- Fault entry: on the state BEFORE the faulting step, `FAULTED <- 1` and `FAULT_CODE <-` the code; nothing else
changes and nothing else is saved (60_exceptions R205). -/
def State.takeFault (s : State) (k : FaultKind) : State := { s with faulted := true, faultCode := k.code }

/-! ### Stack (00_scope R12; 20_memory R53 to R57) -/

/-- `Push(v)`: StackOverflow when the capacity is finite and equals `len(S)` (R57). -/
def State.push (s : State) (v : Word) : Except FaultKind State :=
  if s.config.stackCapacity = some s.stack.length then .error .stackOverflow
  else .ok { s with stack := s.stack ++ [v], tos := s.tos + 1 }

/-- `Pop()`: the newest element and the stack without it; StackUnderflow on an empty stack (R56). -/
def State.pop (s : State) : Except FaultKind (Word × State) :=
  match s.stack.getLast? with
  | some v => .ok (v, { s with stack := s.stack.dropLast, tos := s.tos - 1 })
  | none => .error .stackUnderflow

/-- `MemRead(addr, 1)`: StackUnderflow unless `addr < len(S)` (R55). -/
def State.memRead (s : State) (addr : Nat) : Except FaultKind Word :=
  match s.stack[addr]? with
  | some v => .ok v
  | none => .error .stackUnderflow

/-- `MemWrite(addr, 1, v)`: replaces an existing element, never extends the stack; StackUnderflow unless
`addr < len(S)` (R55). -/
def State.memWrite (s : State) (addr : Nat) (v : Word) : Except FaultKind State :=
  if addr < s.stack.length then .ok { s with stack := s.stack.set addr v } else .error .stackUnderflow

/-! ### Cells by key -/

/-- Read a cell; an unlisted cell reads 0. -/
def Memory.read : Memory → Nat → Word
  | [], _ => 0
  | (k, v) :: rest, key => if k = key then v else Memory.read rest key

/-- Write a cell and keep the canonical form: writing 0 leaves no entry. -/
def Memory.write : Memory → Nat → Word → Memory
  | [], key, v => if v = 0 then [] else [(key, v)]
  | (k, w) :: rest, key, v =>
    if key < k then (if v = 0 then (k, w) :: rest else (key, v) :: (k, w) :: rest)
    else if key = k then (if v = 0 then rest else (key, v) :: rest)
    else (k, w) :: Memory.write rest key v

/-- The canonical form: keys strictly rising, no cell listed with the value an unlisted cell reads as. -/
abbrev Memory.wf (m : Memory) : Prop := m.Pairwise (fun p q => p.1 < q.1) ∧ ∀ p ∈ m, p.2 ≠ 0

/-! ### Grids (20_memory R58, R59; 44_grid_io R180) -/

/-- The key of cell `grid[y][x]`: row-major, with the largest legal side as the row length, so that no two
coordinate pairs of 16 bits share a key and the key does not depend on N. -/
def gridKey (x y : Nat) : Nat := y * 65536 + x

/-- Every listed cell lies inside an N × N grid. -/
abbrev Memory.inGrid (m : Memory) (n : Nat) : Prop := ∀ p ∈ m, p.1 % 65536 < n ∧ p.1 / 65536 < n

/-- The cell `grid_out[y][x]` as the host reads it. -/
def State.gridOutAt (s : State) (x y : Nat) : Word := Memory.read s.gridOut (gridKey x y)

/-- The cell `grid_in[y][x]`. -/
def State.gridInAt (s : State) (x y : Nat) : Word := Memory.read s.gridIn (gridKey x y)

/-- `GridIn(x, y)`: GridOutOfBounds unless `x < N` and `y < N` (R58). -/
def State.gridRead (s : State) (x y : Word) : Except FaultKind Word :=
  if x.toNat < s.config.n ∧ y.toNat < s.config.n then .ok (s.gridInAt x.toNat y.toNat) else .error .gridOutOfBounds

/-- `GridOut(x, y, v)`: GridOutOfBounds unless `x < N` and `y < N` (R59). -/
def State.gridWrite (s : State) (x y v : Word) : Except FaultKind State :=
  if x.toNat < s.config.n ∧ y.toNat < s.config.n then
    .ok { s with gridOut := Memory.write s.gridOut (gridKey x.toNat y.toNat) v }
  else .error .gridOutOfBounds

end Sys2Proof.Machine
end

