-- ==== Sys2Proof/Syntax.lean ====
section
/-! DEFINITION. The instruction set: one constructor per row of the opcode table, each with the two 16-bit operand
fields of format T as they stand in the word (30_encoding R81). What a field means depends on the opcode and on the
dialect of the core (40_step_cycle R106), so the fields stay raw here and any value may stand in them. -/

namespace Sys2Proof

/-- A decoded instruction `OP a, b` (00_scope R13). -/
inductive Instr where
  /-- CONST, 0x01 (R120). -/
  | const (a b : Field)
  /-- PUSH, 0x02 (R121). -/
  | push (a b : Field)
  /-- POP, 0x03 (R122). -/
  | pop (a b : Field)
  /-- LOAD, 0x04 (R123). -/
  | load (a b : Field)
  /-- STORE, 0x05 (R124). -/
  | store (a b : Field)
  /-- COPY, 0x06 (R125). -/
  | copy (a b : Field)
  /-- JUMPIF, 0x07 (R140). -/
  | jumpif (a b : Field)
  /-- NOT, 0x08 (R151). -/
  | not (a b : Field)
  /-- ADD, 0x09 (R152). -/
  | add (a b : Field)
  /-- MULT, 0x0A (R153). -/
  | mult (a b : Field)
  /-- AND, 0x0B (R154). -/
  | and (a b : Field)
  /-- OR, 0x0C (R155). -/
  | or (a b : Field)
  /-- XOR, 0x0D (R156). -/
  | xor (a b : Field)
  /-- LSHIFT, 0x0E (R157). -/
  | lshift (a b : Field)
  /-- RSHIFT, 0x0F (R158). -/
  | rshift (a b : Field)
  /-- EQUALS, 0x10 (R159). -/
  | equals (a b : Field)
  /-- LESSTHAN, 0x11 (R160). -/
  | lessthan (a b : Field)
  /-- INPUT, 0x12 (R181). -/
  | input (a b : Field)
  /-- OUTPUT, 0x13 (R182). -/
  | output (a b : Field)
deriving DecidableEq, Repr

end Sys2Proof
end

