-- ==== Sys2Proof/Decode.lean ====
section
/-! DEFINITION. The decode stage: the opcode map (30_encoding R82), the decoder and the encoder of format T (R81), the
loader's translation of a source triple (R84), and the operand roles per dialect (40_step_cycle R105, R106). -/

namespace Sys2Proof

/-- The 19 opcodes, in the order of 30_encoding R82. -/
inductive Opcode where
  | const | push | pop | load | store | copy | jumpif | not
  | add | mult | and | or | xor | lshift | rshift | equals | lessthan
  | input | output
deriving DecidableEq, Repr

/-- The opcode of an instruction. -/
def Instr.opcode : Instr → Opcode
  | .const _ _ => .const
  | .push _ _ => .push
  | .pop _ _ => .pop
  | .load _ _ => .load
  | .store _ _ => .store
  | .copy _ _ => .copy
  | .jumpif _ _ => .jumpif
  | .not _ _ => .not
  | .add _ _ => .add
  | .mult _ _ => .mult
  | .and _ _ => .and
  | .or _ _ => .or
  | .xor _ _ => .xor
  | .lshift _ _ => .lshift
  | .rshift _ _ => .rshift
  | .equals _ _ => .equals
  | .lessthan _ _ => .lessthan
  | .input _ _ => .input
  | .output _ _ => .output

/-- The two operand fields of an instruction, `a` then `b`. -/
def Instr.fields : Instr → Field × Field
  | .const a b => (a, b)
  | .push a b => (a, b)
  | .pop a b => (a, b)
  | .load a b => (a, b)
  | .store a b => (a, b)
  | .copy a b => (a, b)
  | .jumpif a b => (a, b)
  | .not a b => (a, b)
  | .add a b => (a, b)
  | .mult a b => (a, b)
  | .and a b => (a, b)
  | .or a b => (a, b)
  | .xor a b => (a, b)
  | .lshift a b => (a, b)
  | .rshift a b => (a, b)
  | .equals a b => (a, b)
  | .lessthan a b => (a, b)
  | .input a b => (a, b)
  | .output a b => (a, b)

/-- Operand 1. -/
def Instr.a (i : Instr) : Field := i.fields.1

/-- Operand 2. -/
def Instr.b (i : Instr) : Field := i.fields.2

/-- The instruction with a given opcode and operand fields. -/
def Instr.make (op : Opcode) (a b : Field) : Instr :=
  match op with
  | .const => .const a b
  | .push => .push a b
  | .pop => .pop a b
  | .load => .load a b
  | .store => .store a b
  | .copy => .copy a b
  | .jumpif => .jumpif a b
  | .not => .not a b
  | .add => .add a b
  | .mult => .mult a b
  | .and => .and a b
  | .or => .or a b
  | .xor => .xor a b
  | .lshift => .lshift a b
  | .rshift => .rshift a b
  | .equals => .equals a b
  | .lessthan => .lessthan a b
  | .input => .input a b
  | .output => .output a b

/-- The opcode numbers of 30_encoding R82. -/
def Opcode.number : Opcode → BitVec 8
  | .const => 0x01#8
  | .push => 0x02#8
  | .pop => 0x03#8
  | .load => 0x04#8
  | .store => 0x05#8
  | .copy => 0x06#8
  | .jumpif => 0x07#8
  | .not => 0x08#8
  | .add => 0x09#8
  | .mult => 0x0A#8
  | .and => 0x0B#8
  | .or => 0x0C#8
  | .xor => 0x0D#8
  | .lshift => 0x0E#8
  | .rshift => 0x0F#8
  | .equals => 0x10#8
  | .lessthan => 0x11#8
  | .input => 0x12#8
  | .output => 0x13#8

/-- The opcode an `op` field names; none for 0x00 and for 0x14 to 0xFF (30_encoding R82, R85). -/
def Opcode.ofNumber (op : BitVec 8) : Option Opcode :=
  match op.toNat with
  | 0x01 => some .const
  | 0x02 => some .push
  | 0x03 => some .pop
  | 0x04 => some .load
  | 0x05 => some .store
  | 0x06 => some .copy
  | 0x07 => some .jumpif
  | 0x08 => some .not
  | 0x09 => some .add
  | 0x0A => some .mult
  | 0x0B => some .and
  | 0x0C => some .or
  | 0x0D => some .xor
  | 0x0E => some .lshift
  | 0x0F => some .rshift
  | 0x10 => some .equals
  | 0x11 => some .lessthan
  | 0x12 => some .input
  | 0x13 => some .output
  | _ => none

/-- Field `op`, bits [39:32] (30_encoding R81). -/
def InstrWord.op (w : InstrWord) : BitVec 8 := w.extractLsb' 32 8

/-- Field `a`, bits [31:16] (30_encoding R81). -/
def InstrWord.a (w : InstrWord) : Field := w.extractLsb' 16 16

/-- Field `b`, bits [15:0] (30_encoding R81). -/
def InstrWord.b (w : InstrWord) : Field := w.extractLsb' 0 16

/-- Why a word does not decode. -/
inductive DecodeRefusal where
  /-- The `op` field is 0x00 or 0x14 to 0xFF (30_encoding R85). The core then raises UnrecognizedInstruction. -/
  | unassignedOpcode (op : BitVec 8)
deriving DecidableEq, Repr

/-- The decoder: total on every 40-bit word. Every operand value is accepted (30_encoding R83, R87); whether the
opcode is available in the configured dialect is the later check `decodable` (40_step_cycle R105). -/
def decode (w : InstrWord) : Except DecodeRefusal Instr :=
  match Opcode.ofNumber (InstrWord.op w) with
  | some op => .ok (Instr.make op (InstrWord.a w) (InstrWord.b w))
  | none => .error (.unassignedOpcode (InstrWord.op w))

/-- The encoder: the word `{op, a, b}` (30_encoding R81, R82). -/
def encode (i : Instr) : InstrWord := i.opcode.number ++ i.a ++ i.b

/-- The program-store word of an opcode-table row's bits: bit 0 of `w` is bit 0 of the word (30_encoding R81), and the
bits from `nbits` up are 0. An instruction is ONE 40-bit word and is stored whole, with no byte order
(20_memory R60). -/
def tableWord (nbits w : Nat) : InstrWord := BitVec.ofNat 40 (w % 2 ^ nbits)

/-- The instruction the decoder reads from an opcode-table row's bits; none where it refuses, and none for a row
wider than the one 40-bit format (30_encoding R81, R86). -/
def decodeTableWord (nbits w : Nat) : Option Instr :=
  if nbits ≤ 40 then
    match decode (tableWord nbits w) with
    | .ok i => some i
    | .error _ => none
  else none

/-! ### The triple level (30_encoding R80, R84) -/

/-- A source triple: an opcode tag, `none` for a tag outside the set, and two integer operands (30_encoding R80). -/
structure Triple where
  tag : Option Opcode
  a : Int
  b : Int
deriving DecidableEq, Repr

/-- A loader's field for an operand other than CONST's immediate: the value itself in [0, 65535], else 0xFFFF
(30_encoding R84). -/
def loadField (v : Int) : Field :=
  if 0 ≤ v ∧ v ≤ 65535 then BitVec.ofInt 16 v else 0xFFFF#16

/-- The word a loader makes of a triple (30_encoding R84): `b` of CONST is taken modulo 65536, and a tag outside the
set gets `op = 0x00`. -/
def loadTriple (t : Triple) : InstrWord :=
  match t.tag with
  | none => (0x00#8 ++ loadField t.a ++ loadField t.b : BitVec (8 + 16 + 16))
  | some .const => encode (.const (loadField t.a) (BitVec.ofInt 16 (t.b % 65536)))
  | some op => encode (Instr.make op (loadField t.a) (loadField t.b))

/-! ### Decode-stage checks (40_step_cycle R105 to R107) -/

/-- What a register-role field's register is used for (40_step_cycle R106). -/
inductive RegUse where
  | source | destination | sourceAndDestination | secondSource | offset | target | condition
  | xCoordinate | yCoordinate
deriving DecidableEq, Repr

/-- The role of an operand field (40_step_cycle R106). -/
inductive Role where
  | unused
  | imm
  | reg (use : RegUse)
deriving DecidableEq, Repr

/-- The roles of fields `a` and `b`: the table of 40_step_cycle R106, row by row. -/
def operandRoles (d : Dialect) (op : Opcode) : Role × Role :=
  match op, d with
  | .const, .stack => (.unused, .imm)
  | .const, .register => (.reg .destination, .imm)
  | .push, _ => (.reg .source, .unused)
  | .pop, _ => (.reg .destination, .unused)
  | .load, _ => (.reg .destination, .reg .offset)
  | .store, _ => (.reg .source, .reg .offset)
  | .copy, _ => (.reg .destination, .reg .source)
  | .jumpif, .stack => (.reg .target, .unused)
  | .jumpif, .register => (.reg .target, .reg .condition)
  | .not, .stack => (.unused, .unused)
  | .not, .register => (.reg .sourceAndDestination, .unused)
  | .add, .stack | .mult, .stack | .and, .stack | .or, .stack | .xor, .stack | .lshift, .stack | .rshift, .stack
  | .equals, .stack | .lessthan, .stack => (.unused, .unused)
  | .add, .register | .mult, .register | .and, .register | .or, .register | .xor, .register | .lshift, .register
  | .rshift, .register | .equals, .register | .lessthan, .register =>
    (.reg .sourceAndDestination, .reg .secondSource)
  | .input, .stack | .output, .stack => (.unused, .unused)
  | .input, .register | .output, .register => (.reg .xCoordinate, .reg .yCoordinate)

/-- Whether a field in this role passes the register check: only a register-role field is checked, and it must lie in
[0, 7] (40_step_cycle R107; 30_encoding R87). -/
def Role.admits (r : Role) (f : Field) : Bool :=
  match r with
  | .reg _ => decide (f.toNat ≤ 7)
  | .imm => true
  | .unused => true

/-- Every register-role field of the instruction lies in [0, 7] (40_step_cycle R107). -/
def registersInRange (c : Config) (i : Instr) : Bool :=
  (operandRoles c.dialect i.opcode).1.admits i.a && (operandRoles c.dialect i.opcode).2.admits i.b

/-- Whether a decoded opcode is available in the configuration: all are, except XOR in the register dialect when
`XOR_IN_REGISTER_DIALECT` is false (40_step_cycle R105; 43_alu R156). -/
def decodable (c : Config) (op : Opcode) : Bool :=
  match op, c.dialect with
  | .xor, .register => c.xorInRegister
  | _, _ => true

/-- The register an instruction names as its explicit destination (10_state R27): field `a` where R106 gives it a
destination role. -/
def Instr.destination (d : Dialect) (i : Instr) : Option Field :=
  match (operandRoles d i.opcode).1 with
  | .reg .destination => some i.a
  | .reg .sourceAndDestination => some i.a
  | _ => none

end Sys2Proof
end

