-- ==== Sys2Proof/WellFormed.lean ====
section
/-! DEFINITION. Well-formed instructions: those that pass the decode-stage checks of the configured core
(40_step_cycle R105, R107). An ill-formed instruction is no refusal: the core raises its named fault. -/

namespace Sys2Proof

/-- The instruction is decodable in the configuration (R105) and names only registers 0 to 7 in its register-role
fields (R107). -/
def Instr.wellFormed (c : Config) (i : Instr) : Bool :=
  decodable c i.opcode && registersInRange c i

end Sys2Proof
end

