-- ==== Sys2Proof/Machine/Operands.lean ====
section
/-! DEFINITION. Operand resolution in the two dialects (40_step_cycle R106, R108) and the frame every instruction runs
in: the decode checks, the increment of the PC, the effect, and the commit or the fault (R105 to R112). -/

namespace Sys2Proof.Machine

/-- The register a register-role field names. The check of R107 has found the field in [0, 7], where its value modulo
8 is the value itself. -/
def regIndex (f : Field) : Fin 8 := Fin.ofNat 8 f.toNat

/-- One operand of NOT and JUMPIF: popped in the stack dialect, the register field `f` names in the register
dialect. -/
def operand (f : Field) (t : State) : Except FaultKind (Word × State) :=
  match t.config.dialect with
  | .stack => t.pop
  | .register => .ok (t.reg (regIndex f), t)

/-- The two operands of the binary operators, INPUT and OUTPUT (43_alu R150; 44_grid_io R181). In the stack dialect
the second is popped first; in the register dialect they are the registers of fields `a` and `b`. -/
def operandPair (a b : Field) (t : State) : Except FaultKind (Word × Word × State) :=
  match t.config.dialect with
  | .stack => do
    let (second, t) ← t.pop
    let (first, t) ← t.pop
    .ok (first, second, t)
  | .register => .ok (t.reg (regIndex a), t.reg (regIndex b), t)

/-- Where CONST, NOT and the binary operators put their result: pushed in the stack dialect, into the register field
`a` names in the register dialect. -/
def deliver (a : Field) (v : Word) (t : State) : Except FaultKind State :=
  match t.config.dialect with
  | .stack => t.push v
  | .register => .ok (t.setReg (regIndex a) v)

/-- The effective address of LOAD and STORE, the exact sum `x[1] + x[s]`, not reduced (20_memory R54). -/
def stackAddress (b : Field) (t : State) : Nat := (t.reg 1).toNat + (t.reg (regIndex b)).toNat

/-- The decode-stage checks in the order of 60_exceptions R209: UnrecognizedInstruction, then RegisterOutOfRange. -/
def decodeChecks (c : Config) (i : Instr) : Except FaultKind Unit :=
  if decodable c i.opcode = false then .error .unrecognizedInstruction
  else if registersInRange c i = false then .error .registerOutOfRange
  else .ok ()

/-- The end of a step begun in `s`: a completed effect is committed whole (40_step_cycle R112), a raised fault
discards it and is taken on `s` (60_exceptions R205). -/
def commit (s : State) (r : Except FaultKind State) : Host.Outcome State Fault Refusal :=
  match r with
  | .ok t => .next t
  | .error k => .next (s.takeFault k)

/-- The step cycle after the fetch (40_step_cycle R100): the decode checks, then the increment of the PC, then the
instruction's own effect, which sees the incremented PC (R109, R111). -/
def perform (i : Instr) (effect : State → Except FaultKind State) (s : State) : Host.Outcome State Fault Refusal :=
  commit s (do
    decodeChecks s.config i
    effect s.advancePc)

end Sys2Proof.Machine
end

