-- ==== Sys2Proof/Machine/Alu.lean ====
section
/-! DEFINITION. Arithmetic, logic and comparison: NOT and the nine binary operators (43_alu R150 to R160). -/

namespace Sys2Proof.Machine

/-- `~v & 0xFFFF` (R151). -/
def aluNot (v : Word) : Word := ~~~v

/-- `(lhs + rhs) mod 65536` (R152). -/
def aluAdd (lhs rhs : Word) : Word := lhs + rhs

/-- `(lhs · rhs) mod 65536` (R153). -/
def aluMult (lhs rhs : Word) : Word := lhs * rhs

/-- `lhs & rhs` (R154). -/
def aluAnd (lhs rhs : Word) : Word := lhs &&& rhs

/-- `lhs | rhs` (R155). -/
def aluOr (lhs rhs : Word) : Word := lhs ||| rhs

/-- `lhs ^ rhs` (R156). -/
def aluXor (lhs rhs : Word) : Word := lhs ^^^ rhs

/-- `(lhs · 2^rhs) mod 65536`; the amount is the whole 16-bit value (R157). -/
def aluLshift (lhs rhs : Word) : Word := lhs <<< rhs.toNat

/-- `floor(lhs / 2^rhs)`, zeros filling; the amount is the whole 16-bit value (R158). -/
def aluRshift (lhs rhs : Word) : Word := lhs >>> rhs.toNat

/-- `bool(lhs = rhs)` (R159). -/
def aluEquals (lhs rhs : Word) : Word := boolWord (lhs == rhs)

/-- `bool(lhs < rhs)`, unsigned (R160). -/
def aluLessthan (lhs rhs : Word) : Word := boolWord (lhs.ult rhs)

/-- The operand scheme of the binary operators (R150) with function `f`. -/
def binaryEffect (f : Word → Word → Word) (a b : Field) (t : State) : Except FaultKind State := do
  let (lhs, rhs, t) ← operandPair a b t
  deliver a (f lhs rhs) t

/-- NOT (R151). -/
def execNot (a b : Field) (s : State) : Host.Outcome State Fault Refusal :=
  perform (.not a b) (fun t => do
    let (v, t) ← operand a t
    deliver a (aluNot v) t) s

/-- ADD (R152). -/
def execAdd (a b : Field) (s : State) : Host.Outcome State Fault Refusal :=
  perform (.add a b) (binaryEffect aluAdd a b) s

/-- MULT (R153). -/
def execMult (a b : Field) (s : State) : Host.Outcome State Fault Refusal :=
  perform (.mult a b) (binaryEffect aluMult a b) s

/-- AND (R154). -/
def execAnd (a b : Field) (s : State) : Host.Outcome State Fault Refusal :=
  perform (.and a b) (binaryEffect aluAnd a b) s

/-- OR (R155). -/
def execOr (a b : Field) (s : State) : Host.Outcome State Fault Refusal :=
  perform (.or a b) (binaryEffect aluOr a b) s

/-- XOR (R156). Its availability in the register dialect is the decode check `decodable`. -/
def execXor (a b : Field) (s : State) : Host.Outcome State Fault Refusal :=
  perform (.xor a b) (binaryEffect aluXor a b) s

/-- LSHIFT (R157). -/
def execLshift (a b : Field) (s : State) : Host.Outcome State Fault Refusal :=
  perform (.lshift a b) (binaryEffect aluLshift a b) s

/-- RSHIFT (R158). -/
def execRshift (a b : Field) (s : State) : Host.Outcome State Fault Refusal :=
  perform (.rshift a b) (binaryEffect aluRshift a b) s

/-- EQUALS (R159). -/
def execEquals (a b : Field) (s : State) : Host.Outcome State Fault Refusal :=
  perform (.equals a b) (binaryEffect aluEquals a b) s

/-- LESSTHAN (R160). -/
def execLessthan (a b : Field) (s : State) : Host.Outcome State Fault Refusal :=
  perform (.lessthan a b) (binaryEffect aluLessthan a b) s

end Sys2Proof.Machine
end

