-- ==== Sys2Proof/Machine/Control.lean ====
section
/-! DEFINITION. Control transfer: JUMPIF (42_control R140). Every other write to `x[0]` is a jump too (R141); it needs
no definition of its own, since `x[0]` is an ordinary register. -/

namespace Sys2Proof.Machine

/-- JUMPIF (R140): the condition is popped in the stack dialect and read from `x[s]` in the register dialect; if it is
0, `pc <- x[r]`. -/
def execJumpif (a b : Field) (s : State) : Host.Outcome State Fault Refusal :=
  perform (.jumpif a b) (fun t => do
    let (c, t) ← operand b t
    .ok (if conditionZero c then t.setReg 0 (t.reg (regIndex a)) else t)) s

end Sys2Proof.Machine
end

