-- ==== Sys2Proof/Machine/DataMovement.lean ====
section
/-! DEFINITION. Data movement: CONST, PUSH, POP, LOAD, STORE, COPY (41_data_movement R120 to R125). -/

namespace Sys2Proof.Machine

/-- CONST (R120): `Push(k)` in the stack dialect, `x[r] <- k` in the register dialect. -/
def execConst (a b : Field) (s : State) : Host.Outcome State Fault Refusal :=
  perform (.const a b) (fun t => deliver a b t) s

/-- PUSH (R121): `Push(x[r])`. -/
def execPush (a b : Field) (s : State) : Host.Outcome State Fault Refusal :=
  perform (.push a b) (fun t => t.push (t.reg (regIndex a))) s

/-- POP (R122): `x[r] <- Pop()`. -/
def execPop (a b : Field) (s : State) : Host.Outcome State Fault Refusal :=
  perform (.pop a b) (fun t => do
    let (v, t) ← t.pop
    .ok (t.setReg (regIndex a) v)) s

/-- LOAD (R123): `x[r] <- MemRead(x[1] + x[s])`. -/
def execLoad (a b : Field) (s : State) : Host.Outcome State Fault Refusal :=
  perform (.load a b) (fun t => do
    let v ← t.memRead (stackAddress b t)
    .ok (t.setReg (regIndex a) v)) s

/-- STORE (R124): `MemWrite(x[1] + x[s], x[r])`. -/
def execStore (a b : Field) (s : State) : Host.Outcome State Fault Refusal :=
  perform (.store a b) (fun t => t.memWrite (stackAddress b t) (t.reg (regIndex a))) s

/-- COPY (R125): `x[r] <- x[s]`. -/
def execCopy (a b : Field) (s : State) : Host.Outcome State Fault Refusal :=
  perform (.copy a b) (fun t => .ok (t.setReg (regIndex a) (t.reg (regIndex b)))) s

end Sys2Proof.Machine
end

