-- ==== Sys2Proof/Machine/GridIo.lean ====
section
/-! DEFINITION. Grid-addressed I/O: INPUT and OUTPUT (44_grid_io R180 to R182). -/

namespace Sys2Proof.Machine

/-- INPUT (R181): `x[2] <- grid_in[y][x]`. The coordinates are read before `x[2]` is written; in the stack dialect y is
popped first. -/
def execInput (a b : Field) (s : State) : Host.Outcome State Fault Refusal :=
  perform (.input a b) (fun t => do
    let (xc, y, t) ← operandPair a b t
    let v ← t.gridRead xc y
    .ok (t.setReg 2 v)) s

/-- OUTPUT (R182): `grid_out[y][x] <- x[2]`. -/
def execOutput (a b : Field) (s : State) : Host.Outcome State Fault Refusal :=
  perform (.output a b) (fun t => do
    let (xc, y, t) ← operandPair a b t
    t.gridWrite xc y (t.reg 2)) s

end Sys2Proof.Machine
end

