-- ==== Sys2Proof/Machine/Dispatch.lean ====
section
/-! DEFINITION. The dispatch of 40_step_cycle R110: one arm per instruction, one direct call of its meaning. -/

namespace Sys2Proof.Machine

def exec (i : Instr) (s : State) : Host.Outcome State Fault Refusal :=
  match i with
  | .const a b => Sys2Proof.Machine.execConst a b s
  | .push a b => Sys2Proof.Machine.execPush a b s
  | .pop a b => Sys2Proof.Machine.execPop a b s
  | .load a b => Sys2Proof.Machine.execLoad a b s
  | .store a b => Sys2Proof.Machine.execStore a b s
  | .copy a b => Sys2Proof.Machine.execCopy a b s
  | .jumpif a b => Sys2Proof.Machine.execJumpif a b s
  | .not a b => Sys2Proof.Machine.execNot a b s
  | .add a b => Sys2Proof.Machine.execAdd a b s
  | .mult a b => Sys2Proof.Machine.execMult a b s
  | .and a b => Sys2Proof.Machine.execAnd a b s
  | .or a b => Sys2Proof.Machine.execOr a b s
  | .xor a b => Sys2Proof.Machine.execXor a b s
  | .lshift a b => Sys2Proof.Machine.execLshift a b s
  | .rshift a b => Sys2Proof.Machine.execRshift a b s
  | .equals a b => Sys2Proof.Machine.execEquals a b s
  | .lessthan a b => Sys2Proof.Machine.execLessthan a b s
  | .input a b => Sys2Proof.Machine.execInput a b s
  | .output a b => Sys2Proof.Machine.execOutput a b s

end Sys2Proof.Machine
end

