-- ==== Sys2Proof/Machine/Fetch.lean ====
section
/-! DEFINITION. The front of the step cycle (40_step_cycle R100 to R105): the supplied instruction or the halt test and
the fetch, then decode; and how a word is placed where the next step fetches. -/

namespace Sys2Proof.Machine

/-- The word this step runs: the supplied one when the host supplies one, in place of the halt test and the fetch
(R103); else `Prog[x[0]]` (R102), or HaltedMachine when `x[0] ≥ L` (R104). -/
def nextWord (s : State) : Except FaultKind InstrWord :=
  match s.supplied with
  | some w => .ok w
  | none =>
    match s.prog[s.pc.toNat]? with
    | some w => .ok w
    | none => .error .haltedMachine

/-- The instruction this step runs; an unassigned opcode raises UnrecognizedInstruction (R105). -/
def nextInstr (s : State) : Except FaultKind Instr := do
  let w ← nextWord s
  match decode w with
  | .ok i => .ok i
  | .error _ => .error .unrecognizedInstruction

/-- The request is taken: the supplied instruction, the model's own field, is consumed (log entry 7). -/
def State.takeRequest (s : State) : State := { s with supplied := none }

/-- A program store with `w` at index `k`, lengthened with unassigned all-zero words if it is shorter. -/
def placeWord (prog : List InstrWord) (k : Nat) (w : InstrWord) : List InstrWord :=
  if k < prog.length then prog.set k w else prog ++ List.replicate (k - prog.length) 0 ++ [w]

/-- `s` with `w` in the program store at the PC and everything else a fetch needs: no supplied instruction and no fault
record. It stands for the host's Construct with such a program (log entry 16). -/
def State.withWordAtPc (s : State) (w : InstrWord) : State :=
  { s with prog := placeWord s.prog s.pc.toNat w, supplied := none, faulted := false, faultCode := 0 }

end Sys2Proof.Machine
end

