-- ==== Sys2Proof/Machine/Step.lean ====
section
/-! DEFINITION. One step transaction (40_step_cycle R100). -/

namespace Sys2Proof.Machine

/-- The step cycle. A request to a faulted core is refused with no effect (60_exceptions R206, log entry 6); else the
instruction is supplied or fetched and decoded, and runs, or the fault of those stages is taken. -/
def step (s : State) : Host.Outcome State Fault Refusal :=
  if s.faulted then .next s.takeRequest
  else
    match nextInstr s with
    | .ok i => exec i s.takeRequest
    | .error k => .next (s.takeRequest.takeFault k)

/-- `StepWith(ins)`: a step with `w` injected (40_step_cycle R103; 60_exceptions R220). -/
def stepWith (w : InstrWord) (s : State) : Host.Outcome State Fault Refusal := step { s with supplied := some w }

/-- `s` with an opcode-table row's word stored where `step` fetches its next instruction. -/
def State.withFetchWord (s : State) (nbits w : Nat) : State := s.withWordAtPc (tableWord nbits w)

end Sys2Proof.Machine
end

