-- ==== Sys2Proof/Machine/Construct.lean ====
section
/-! DEFINITION. Construct, the only reset (70_reset_and_hazards R240 to R242; 60_exceptions R220): what the host sends,
what the loader refuses, and the state it leaves. -/

namespace Sys2Proof.Machine

/-- An instruction of the program as the host supplies it: a word or a triple (60_exceptions R220). -/
inductive ProgramItem where
  | word (w : InstrWord)
  | triple (t : Triple)
deriving DecidableEq, Repr

/-- The program-store word of a supplied instruction (30_encoding R84). -/
def ProgramItem.toWord : ProgramItem → InstrWord
  | .word w => w
  | .triple t => loadTriple t

/-- What the host sends with Construct (60_exceptions R220), with the defaults of 00_scope R9. `gridIn` lists the rows
`grid_in[y]`, each the values `grid_in[y][x]`. -/
structure ConstructArgs where
  dialect : Dialect
  n : Nat
  xorInRegister : Bool := true
  stackCapacity : Option Nat := none
  program : List ProgramItem
  gridIn : List (List Int)
deriving DecidableEq, Repr

/-- What the loader accepts: `1 ≤ N ≤ 65536` (00_scope R9), at most 65536 instructions, and an input grid of exactly
N × N values in [0, 65535] (70_reset_and_hazards R242). -/
def ConstructArgs.accepted (c : ConstructArgs) : Bool :=
  decide (1 ≤ c.n ∧ c.n ≤ Config.maxSize) && decide (c.program.length ≤ Config.maxSize) &&
  decide (c.gridIn.length = c.n) && c.gridIn.all (fun row => decide (row.length = c.n)) &&
  c.gridIn.all (fun row => row.all (fun v => decide (0 ≤ v ∧ v ≤ 65535)))

/-- Row `y` of a grid from column `x` on, written into its cells. -/
def loadRow (y : Nat) : Nat → List Int → Memory → Memory
  | _, [], m => m
  | x, v :: vs, m => loadRow y (x + 1) vs (Memory.write m (gridKey x y) (BitVec.ofInt 16 v))

/-- The rows of a grid from row `y` on, written into their cells. -/
def loadRows : Nat → List (List Int) → Memory → Memory
  | _, [], m => m
  | y, row :: rows, m => loadRows (y + 1) rows (loadRow y 0 row m)

/-- The configuration the host constructs with. -/
def ConstructArgs.config (c : ConstructArgs) : Config :=
  { dialect := c.dialect, n := c.n, xorInRegister := c.xorInRegister, stackCapacity := c.stackCapacity }

/-- Construct: fix the configuration, load the program and the input grid, set every piece of state to its reset value
(70_reset_and_hazards R240); none when the loader refuses (R242). -/
def construct (c : ConstructArgs) : Option State :=
  if c.accepted then
    some (State.initial c.config (c.program.map ProgramItem.toWord) (loadRows 0 c.gridIn []))
  else none

end Sys2Proof.Machine
end

