-- ==== Sys2Proof/Machine/Transactions.lean ====
section
/-! DEFINITION. The host interface: the host-visible registers (10_state R33) and the transactions of 60_exceptions
R220. -/

namespace Sys2Proof.Machine

/-- CFG: `DIALECT` [0], `XOR_IN_REGISTER_DIALECT` [1], `STACK_BOUNDED` [2], the rest 0 (10_state R33). -/
def cfgWord (s : State) : BitVec 32 :=
  (0#29 ++ BitVec.ofBool s.config.stackCapacity.isSome ++ BitVec.ofBool s.config.xorInRegister ++
    BitVec.ofBool (s.config.dialect == .register) : BitVec (29 + 1 + 1 + 1))

/-- CFG_N: `N` in [16:0] (10_state R33). -/
def cfgNWord (s : State) : BitVec 32 := (0#15 ++ BitVec.ofNat 17 s.config.n : BitVec (15 + 17))

/-- CFG_L: `L` in [16:0] (10_state R33). -/
def cfgLWord (s : State) : BitVec 32 := (0#15 ++ BitVec.ofNat 17 s.prog.length : BitVec (15 + 17))

/-- CFG_STACK_CAPACITY; a free value when the stack is unbounded, where R33 gives it no meaning (log entry 18). -/
def cfgStackCapacity (s : State) : Nat :=
  match s.config.stackCapacity with
  | some capacity => capacity
  | none => Config.unboundedCapacityReading

/-- STATUS: `RUNNABLE` [0], `FAULTED` [1], `FAULT_CODE` [4:2], the rest 0 (10_state R33). -/
def statusWord (s : State) : BitVec 32 :=
  (0#27 ++ s.faultCode ++ BitVec.ofBool s.faulted ++ BitVec.ofBool s.runnable : BitVec (27 + 3 + 1 + 1))

/-- The host-visible registers by number (10_state R33). -/
def hostRegister (s : State) (n : Fin 7) : Nat :=
  match n with
  | 0 => (cfgWord s).toNat
  | 1 => (cfgNWord s).toNat
  | 2 => (cfgLWord s).toNat
  | 3 => cfgStackCapacity s
  | 4 => (statusWord s).toNat
  | 5 => s.stack.length
  | 6 => s.tos

/-- A transaction the host requests (60_exceptions R220). `writeHost` is the write of a host-visible register, which
10_state R33 says is refused (log entry 17). -/
inductive Request where
  | construct (args : ConstructArgs)
  | step
  | stepWith (ins : ProgramItem)
  | readReg (i : Fin 8)
  | readStack (i : Nat)
  | readGridOut (x y : Nat)
  | readHost (n : Fin 7)
  | writeHost (n : Fin 7) (v : Nat)
deriving DecidableEq, Repr

/-- What the host gets back (60_exceptions R220). -/
inductive Reply where
  /-- Nothing. -/
  | nothing
  /-- The step completed. -/
  | ok
  /-- The step raised the fault with this code. -/
  | fault (code : BitVec 3)
  /-- The request was refused: a step of a faulted core (R206), a write of a host register (R33), or construction data
  the loader refuses (R242). -/
  | refused
  /-- The value read. -/
  | value (v : Nat)
  /-- A host-side error of a read out of range, which is no fault of the core (R220). -/
  | hostError
deriving DecidableEq, Repr

/-- The reply to a step request made in `s`, and the state after it (60_exceptions R220, R206). -/
def stepReply (s : State) (o : Host.Outcome State Fault Refusal) : Reply × State :=
  match o with
  | .next t => if s.faulted then (.refused, t) else if t.faulted then (.fault t.faultCode, t) else (.ok, t)
  | .fault _ => (.refused, s)
  | .refused _ => (.refused, s)

/-- One transaction: the reply and the state after it (60_exceptions R220). `step` is the step with no injected
instruction, whatever stands in the field `supplied`. -/
def transact (r : Request) (s : State) : Reply × State :=
  match r with
  | .construct args =>
    match construct args with
    | some t => (.nothing, t)
    | none => (.refused, s)
  | .step => stepReply s (step s.takeRequest)
  | .stepWith ins => stepReply s (stepWith ins.toWord s)
  | .readReg i => (.value (s.reg i).toNat, s)
  | .readStack i =>
    match s.stack[i]? with
    | some v => (.value v.toNat, s)
    | none => (.hostError, s)
  | .readGridOut x y =>
    if x < s.config.n ∧ y < s.config.n then (.value (s.gridOutAt x y).toNat, s) else (.hostError, s)
  | .readHost n => (.value (hostRegister s n), s)
  | .writeHost _ _ => (.refused, s)

end Sys2Proof.Machine
end

