-- ==== Sys2Proof/Safety.lean ====
section
/-! DEFINITION. What counts as a safe state and as the end of a run: the invariant of the core, the reachable states,
and the three ends of a run (40_step_cycle R114). -/

namespace Sys2Proof.Machine

/-- The fault record is one R33 lists: code 0 exactly when `FAULTED` is 0, and at most 6 (10_state R33; 60_exceptions
R200). -/
def State.recordLegal (s : State) : Prop := (s.faulted = false ↔ s.faultCode = 0) ∧ s.faultCode.toNat ≤ 6

/-- What holds of every reachable state. -/
structure State.Inv (s : State) : Prop where
  /-- `1 ≤ N ≤ 65536` (00_scope R9). -/
  side : 1 ≤ s.config.n ∧ s.config.n ≤ Config.maxSize
  /-- `L ≤ 65536` (00_scope R9). -/
  length : s.prog.length ≤ Config.maxSize
  /-- `len(S) ≤ STACK_CAPACITY` (10_state R33, SLEN). -/
  capacity : ∀ c, s.config.stackCapacity = some c → s.stack.length ≤ c
  /-- `tos = len(S)` (10_state R28). -/
  counter : s.tos = s.stack.length
  /-- The output grid keeps its canonical form. -/
  gridOut_wf : Memory.wf s.gridOut
  /-- No cell outside N × N was written (20_memory R59). -/
  gridOut_in : Memory.inGrid s.gridOut s.config.n
  /-- The input grid keeps its canonical form. -/
  gridIn_wf : Memory.wf s.gridIn
  /-- The input grid holds no cell outside N × N (10_state R35). -/
  gridIn_in : Memory.inGrid s.gridIn s.config.n
  /-- The fault record is a legal one. -/
  record : s.recordLegal

/-- The states a host can reach: a construction, and steps with or without a supplied instruction. -/
inductive Reachable : State → Prop where
  | construct (args : ConstructArgs) (s : State) (h : construct args = some s) : Reachable s
  | step (s t : State) (inj : Option InstrWord) (hs : Reachable s) (h : step { s with supplied := inj } = .next t) :
      Reachable t

/-- Halted: not runnable and not faulted (00_scope R15), the only successful end of a run (40_step_cycle R114). -/
def State.halted (s : State) : Bool := !s.runnable && !s.faulted

/-- The ends of a run that a state shows (40_step_cycle R114). -/
inductive RunEnd where
  | halted
  | faulted
deriving DecidableEq, Repr

/-- The end a state shows, none while the run goes on (40_step_cycle R114). -/
def State.runEnd (s : State) : Option RunEnd :=
  if s.faulted then some .faulted else if s.runnable then none else some .halted

/-- Running forever: no number of steps shows an end (40_step_cycle R114). -/
def State.runsForever (s : State) : Prop :=
  ∀ (k : Nat) (t : State), Sys2Proof.core.run k s = .next t → t.runEnd = none

end Sys2Proof.Machine
end

