-- ==== Sys2Proof/Certificates/Slice0/Obligations.lean ====
section
/-! DEFINITION. The statements for the provers. Each is read beside the rules of spec/ its docstring names. The helper
definitions of Sys2Proof.Spec say the spec's own vocabulary once, without the model's operations. -/

namespace Sys2Proof.Spec

open Sys2Proof.Machine

/-- The registers inside `Execute`: `x[0]` is the index of the executing instruction plus 1 modulo 65536
(40_step_cycle R109, R111). -/
def incremented (s : State) : Vector Word 8 := s.regs.set 0 (s.regs[0] + 1)

/-- `s` with only the fault record written (60_exceptions R205). -/
def recorded (s : State) (code : BitVec 3) : State := { s with faulted := true, faultCode := code }

/-- The word `{op, a, b}` of format T (30_encoding R81). -/
def formatT (op : BitVec 8) (a b : Field) : InstrWord := op ++ a ++ b

/-- The stack is within a finite capacity and `tos` counts it: the part of the invariant that pops and pushes rest
on (10_state R28, R33). -/
def StackSound (s : State) : Prop :=
  s.tos = s.stack.length ∧ ∀ c, s.config.stackCapacity = some c → s.stack.length ≤ c

/-- The rule of one binary operator (43_alu R150 with the operator's function `f`, and its opcode number), where it is
available in the register dialect under `available`. -/
def BinaryRule (mk : Field → Field → Instr) (op : BitVec 8) (available : Config → Bool) (f : Nat → Nat → Nat) : Prop :=
  (∀ a b, encode (mk a b) = formatT op a b) ∧
  (∀ (s : State) (a b : Field), s.config.dialect = .stack → StackSound s →
    (∀ base lhs rhs, s.stack = base ++ [lhs, rhs] →
      exec (mk a b) s = .next { s with
        regs := incremented s
        stack := base ++ [BitVec.ofNat 16 (f lhs.toNat rhs.toNat)]
        tos := s.tos - 1 }) ∧
    (s.stack.length < 2 → exec (mk a b) s = .next (recorded s 4))) ∧
  (∀ (s : State) (a b : Field), s.config.dialect = .register →
    (available s.config = true →
      (∀ (_ : a.toNat < 8) (_ : b.toNat < 8),
        exec (mk a b) s = .next { s with
          regs := (incremented s).set a.toNat
            (BitVec.ofNat 16 (f (incremented s)[a.toNat].toNat (incremented s)[b.toNat].toNat)) }) ∧
      (8 ≤ a.toNat ∨ 8 ≤ b.toNat → exec (mk a b) s = .next (recorded s 3))) ∧
    (available s.config = false → exec (mk a b) s = .next (recorded s 2)))

/-- The register-role fields of an instruction, those marked "reg" in the table of 40_step_cycle R106. -/
def registerFields (d : Dialect) : Instr → List Field
  | .const a _ => if d = .register then [a] else []
  | .push a _ => [a]
  | .pop a _ => [a]
  | .load a b => [a, b]
  | .store a b => [a, b]
  | .copy a b => [a, b]
  | .jumpif a b => if d = .register then [a, b] else [a]
  | .not a _ => if d = .register then [a] else []
  | .add a b => if d = .register then [a, b] else []
  | .mult a b => if d = .register then [a, b] else []
  | .and a b => if d = .register then [a, b] else []
  | .or a b => if d = .register then [a, b] else []
  | .xor a b => if d = .register then [a, b] else []
  | .lshift a b => if d = .register then [a, b] else []
  | .rshift a b => if d = .register then [a, b] else []
  | .equals a b => if d = .register then [a, b] else []
  | .lessthan a b => if d = .register then [a, b] else []
  | .input a b => if d = .register then [a, b] else []
  | .output a b => if d = .register then [a, b] else []

/-- The fields an instruction reads: the register-role fields and CONST's immediate (40_step_cycle R106). -/
def usedFields (d : Dialect) (i : Instr) : List Field :=
  match i with
  | .const _ b => b :: registerFields d i
  | _ => registerFields d i

/-- The explicit destination fields of 10_state R27. -/
def destinations (d : Dialect) : Instr → List Field
  | .const a _ => if d = .register then [a] else []
  | .pop a _ => [a]
  | .load a _ => [a]
  | .copy a _ => [a]
  | .not a _ => if d = .register then [a] else []
  | .add a _ => if d = .register then [a] else []
  | .mult a _ => if d = .register then [a] else []
  | .and a _ => if d = .register then [a] else []
  | .or a _ => if d = .register then [a] else []
  | .xor a _ => if d = .register then [a] else []
  | .lshift a _ => if d = .register then [a] else []
  | .rshift a _ => if d = .register then [a] else []
  | .equals a _ => if d = .register then [a] else []
  | .lessthan a _ => if d = .register then [a] else []
  | .push _ _ => []
  | .store _ _ => []
  | .jumpif _ _ => []
  | .input _ _ => []
  | .output _ _ => []

/-- The fault codes an instruction can raise in execution or in the register check: the table of 60_exceptions R210,
with 2 (UnrecognizedInstruction) for XOR in the register dialect. -/
def faultCodes (d : Dialect) : Instr → List (BitVec 3)
  | .const _ _ => if d = .stack then [6] else [3]
  | .push _ _ => [3, 6]
  | .pop _ _ => [3, 4]
  | .load _ _ => [3, 4]
  | .store _ _ => [3, 4]
  | .copy _ _ => [3]
  | .jumpif _ _ => if d = .stack then [3, 4] else [3]
  | .not _ _ => if d = .stack then [4] else [3]
  | .add _ _ => if d = .stack then [4] else [3]
  | .mult _ _ => if d = .stack then [4] else [3]
  | .and _ _ => if d = .stack then [4] else [3]
  | .or _ _ => if d = .stack then [4] else [3]
  | .xor _ _ => if d = .stack then [4] else [3, 2]
  | .lshift _ _ => if d = .stack then [4] else [3]
  | .rshift _ _ => if d = .stack then [4] else [3]
  | .equals _ _ => if d = .stack then [4] else [3]
  | .lessthan _ _ => if d = .stack then [4] else [3]
  | .input _ _ => if d = .stack then [4, 5] else [3, 5]
  | .output _ _ => if d = .stack then [4, 5] else [3, 5]

/-- The opcode field of a word is not decodable in the configuration (30_encoding R85). -/
def illegalOp (c : Config) (w : InstrWord) : Prop :=
  InstrWord.op w = 0 ∨ 0x14 ≤ (InstrWord.op w).toNat ∨
    (InstrWord.op w = 0x0D ∧ c.dialect = .register ∧ c.xorInRegister = false)

/-- What INPUT does once its coordinates `xc`, `y` are known, where `rest` is the stack without popped coordinates and
`tos` its count (44_grid_io R181). -/
def InputAt (s : State) (i : Instr) (rest : List Word) (tos : Nat) (xc y : Word) : Prop :=
  (xc.toNat < s.config.n ∧ y.toNat < s.config.n →
    exec i s = .next { s with
      regs := (incremented s).set 2 (s.gridInAt xc.toNat y.toNat)
      stack := rest
      tos := tos }) ∧
  (s.config.n ≤ xc.toNat ∨ s.config.n ≤ y.toNat → exec i s = .next (recorded s 5))

/-- What OUTPUT does once its coordinates are known: the one cell holds `x[2]`, every other cell of the output grid
reads as before, and nothing else changes but the PC and the popped stack (44_grid_io R182). -/
def OutputAt (s : State) (i : Instr) (rest : List Word) (tos : Nat) (xc y : Word) : Prop :=
  (xc.toNat < s.config.n ∧ y.toNat < s.config.n →
    ∃ g, exec i s = .next { s with regs := incremented s, stack := rest, tos := tos, gridOut := g } ∧
      ∀ x' y', x' < s.config.n → y' < s.config.n →
        Memory.read g (gridKey x' y') =
          if x' = xc.toNat ∧ y' = y.toNat then s.regs[2] else s.gridOutAt x' y') ∧
  (s.config.n ≤ xc.toNat ∨ s.config.n ≤ y.toNat → exec i s = .next (recorded s 5))

/-- The 22 triples and words of 30_encoding R90, in its order. -/
def workedEncodings : List (Triple × Nat) :=
  [(⟨some .const, 3, 7⟩, 0x0100030007), (⟨some .push, 3, 0⟩, 0x0200030000), (⟨some .pop, 0, 0⟩, 0x0300000000),
   (⟨some .load, 5, 7⟩, 0x0400050007), (⟨some .store, 5, 7⟩, 0x0500050007), (⟨some .copy, 3, 3⟩, 0x0600030003),
   (⟨some .jumpif, 7, 5⟩, 0x0700070005), (⟨some .not, 3, 0⟩, 0x0800030000), (⟨some .add, 2, 6⟩, 0x0900020006),
   (⟨some .mult, 5, 6⟩, 0x0A00050006), (⟨some .and, 3, 4⟩, 0x0B00030004), (⟨some .or, 3, 4⟩, 0x0C00030004)] ++
  [(⟨some .xor, 3, 4⟩, 0x0D00030004), (⟨some .lshift, 3, 4⟩, 0x0E00030004), (⟨some .rshift, 3, 4⟩, 0x0F00030004),
   (⟨some .equals, 5, 7⟩, 0x1000050007), (⟨some .lessthan, 0, 0⟩, 0x1100000000), (⟨some .input, 3, 4⟩, 0x1200030004),
   (⟨some .output, 3, 4⟩, 0x1300030004), (⟨some .const, 0, -1⟩, 0x010000FFFF), (⟨some .push, 9, 0⟩, 0x0200090000),
   (⟨some .push, -1, 0⟩, 0x02FFFF0000)]

end Sys2Proof.Spec

open Sys2Proof Sys2Proof.Machine Sys2Proof.Spec

/-! ### The instructions -/

/-- CONST, 41_data_movement R120. -/
def Obligations.ConstLoadsItsImmediate : Prop :=
  (∀ a b, encode (.const a b) = formatT 0x01 a b) ∧
  (∀ x k : Int, ∃ a', decode (loadTriple ⟨some .const, x, k⟩) = .ok (.const a' (BitVec.ofNat 16 (k % 65536).toNat))) ∧
  ∀ (s : State) (a b : Field),
    (s.config.dialect = .stack →
      (s.config.stackCapacity ≠ some s.stack.length →
        exec (.const a b) s = .next { s with regs := incremented s, stack := s.stack ++ [b], tos := s.tos + 1 }) ∧
      (s.config.stackCapacity = some s.stack.length → exec (.const a b) s = .next (recorded s 6))) ∧
    (s.config.dialect = .register →
      (∀ _ : a.toNat < 8, exec (.const a b) s = .next { s with regs := (incremented s).set a.toNat b }) ∧
      (8 ≤ a.toNat → exec (.const a b) s = .next (recorded s 3)))

/-- PUSH, 41_data_movement R121, with the property of a PUSH and a POP in a row. -/
def Obligations.PushAppendsRegister : Prop :=
  (∀ a b, encode (.push a b) = formatT 0x02 a b) ∧
  (∀ (s : State) (a b : Field),
    (∀ _ : a.toNat < 8,
      (s.config.stackCapacity ≠ some s.stack.length →
        exec (.push a b) s = .next { s with
          regs := incremented s
          stack := s.stack ++ [(incremented s)[a.toNat]]
          tos := s.tos + 1 }) ∧
      (s.config.stackCapacity = some s.stack.length → exec (.push a b) s = .next (recorded s 6))) ∧
    (8 ≤ a.toNat → exec (.push a b) s = .next (recorded s 3))) ∧
  (∀ (s t : State) (a b a' b' : Field) (_ : a.toNat < 8) (_ : a'.toNat < 8), a ≠ 0 → a' ≠ 0 →
    s.config.stackCapacity ≠ some s.stack.length → exec (.push a b) s = .next t →
    ∃ u, exec (.pop a' b') t = .next u ∧ u.regs[a'.toNat] = s.regs[a.toNat] ∧ u.stack.length = s.stack.length)

/-- POP, 41_data_movement R122. The premise on `tos` is 10_state R28's `tos = len(S)`. -/
def Obligations.PopMovesTopToRegister : Prop :=
  (∀ a b, encode (.pop a b) = formatT 0x03 a b) ∧
  ∀ (s : State) (a b : Field), s.tos = s.stack.length →
    (∀ _ : a.toNat < 8,
      (∀ base v, s.stack = base ++ [v] →
        exec (.pop a b) s = .next { s with
          regs := (incremented s).set a.toNat v
          stack := base
          tos := base.length }) ∧
      (s.stack = [] → exec (.pop a b) s = .next (recorded s 4))) ∧
    (8 ≤ a.toNat → exec (.pop a b) s = .next (recorded s 3))

/-- LOAD, 41_data_movement R123. -/
def Obligations.LoadReadsBaseRelative : Prop :=
  (∀ a b, encode (.load a b) = formatT 0x04 a b) ∧
  ∀ (s : State) (a b : Field),
    (∀ (_ : a.toNat < 8) (_ : b.toNat < 8) (addr : Nat),
      addr = (incremented s)[1].toNat + (incremented s)[b.toNat].toNat →
      (∀ _ : addr < s.stack.length,
        exec (.load a b) s = .next { s with regs := (incremented s).set a.toNat s.stack[addr] }) ∧
      (s.stack.length ≤ addr → exec (.load a b) s = .next (recorded s 4))) ∧
    (8 ≤ a.toNat ∨ 8 ≤ b.toNat → exec (.load a b) s = .next (recorded s 3))

/-- STORE, 41_data_movement R124. The whole next state is given, so every other element of the stack, every register
but the PC, and everything else is unchanged. -/
def Obligations.StoreWritesBaseRelative : Prop :=
  (∀ a b, encode (.store a b) = formatT 0x05 a b) ∧
  ∀ (s : State) (a b : Field),
    (∀ (_ : a.toNat < 8) (_ : b.toNat < 8) (addr : Nat),
      addr = (incremented s)[1].toNat + (incremented s)[b.toNat].toNat →
      (∀ _ : addr < s.stack.length,
        exec (.store a b) s = .next { s with
          regs := incremented s
          stack := s.stack.set addr (incremented s)[a.toNat] }) ∧
      (s.stack.length ≤ addr → exec (.store a b) s = .next (recorded s 4))) ∧
    (8 ≤ a.toNat ∨ 8 ≤ b.toNat → exec (.store a b) s = .next (recorded s 3))

/-- COPY, 41_data_movement R125; copying a register to itself changes only the PC. -/
def Obligations.CopyMovesRegister : Prop :=
  (∀ a b, encode (.copy a b) = formatT 0x06 a b) ∧
  ∀ (s : State) (a b : Field),
    (∀ (_ : a.toNat < 8) (_ : b.toNat < 8),
      exec (.copy a b) s = .next { s with regs := (incremented s).set a.toNat (incremented s)[b.toNat] }) ∧
    (∀ _ : a.toNat < 8, exec (.copy a a) s = .next { s with regs := incremented s }) ∧
    (8 ≤ a.toNat ∨ 8 ≤ b.toNat → exec (.copy a b) s = .next (recorded s 3))

/-- JUMPIF, 42_control R140. -/
def Obligations.JumpifJumpsOnZero : Prop :=
  (∀ a b, encode (.jumpif a b) = formatT 0x07 a b) ∧
  (∀ (s : State) (a b : Field), s.config.dialect = .stack → s.tos = s.stack.length →
    (∀ _ : a.toNat < 8,
      (∀ base, s.stack = base ++ [0] →
        exec (.jumpif a b) s = .next { s with
          regs := (incremented s).set 0 (incremented s)[a.toNat]
          stack := base
          tos := base.length }) ∧
      (∀ base c, c ≠ 0 → s.stack = base ++ [c] →
        exec (.jumpif a b) s = .next { s with regs := incremented s, stack := base, tos := base.length }) ∧
      (s.stack = [] → exec (.jumpif a b) s = .next (recorded s 4))) ∧
    (8 ≤ a.toNat → exec (.jumpif a b) s = .next (recorded s 3))) ∧
  (∀ (s : State) (a b : Field), s.config.dialect = .register →
    (∀ (_ : a.toNat < 8) (_ : b.toNat < 8),
      ((incremented s)[b.toNat] = 0 →
        exec (.jumpif a b) s = .next { s with regs := (incremented s).set 0 (incremented s)[a.toNat] }) ∧
      ((incremented s)[b.toNat] ≠ 0 → exec (.jumpif a b) s = .next { s with regs := incremented s })) ∧
    (8 ≤ a.toNat ∨ 8 ≤ b.toNat → exec (.jumpif a b) s = .next (recorded s 3)))

/-- NOT, 43_alu R151. -/
def Obligations.NotComplements : Prop :=
  (∀ a b, encode (.not a b) = formatT 0x08 a b) ∧
  (∀ (s : State) (a b : Field), s.config.dialect = .stack → StackSound s →
    (∀ base v, s.stack = base ++ [v] →
      exec (.not a b) s = .next { s with
        regs := incremented s
        stack := base ++ [BitVec.ofNat 16 (65535 - v.toNat)] }) ∧
    (s.stack = [] → exec (.not a b) s = .next (recorded s 4))) ∧
  (∀ (s : State) (a b : Field), s.config.dialect = .register →
    (∀ _ : a.toNat < 8,
      exec (.not a b) s = .next { s with
        regs := (incremented s).set a.toNat (BitVec.ofNat 16 (65535 - (incremented s)[a.toNat].toNat)) }) ∧
    (8 ≤ a.toNat → exec (.not a b) s = .next (recorded s 3)))

/-- ADD and MULT, 43_alu R152, R153. -/
def Obligations.AddAndMultWrap : Prop :=
  BinaryRule .add 0x09 (fun _ => true) (fun lhs rhs => (lhs + rhs) % 65536) ∧
  BinaryRule .mult 0x0A (fun _ => true) (fun lhs rhs => (lhs * rhs) % 65536)

/-- AND, OR and XOR, 43_alu R154 to R156; XOR in the register dialect only when its parameter is true. -/
def Obligations.AndOrXorAreBitwise : Prop :=
  BinaryRule .and 0x0B (fun _ => true) (fun lhs rhs => lhs &&& rhs) ∧
  BinaryRule .or 0x0C (fun _ => true) (fun lhs rhs => lhs ||| rhs) ∧
  BinaryRule .xor 0x0D Config.xorInRegister (fun lhs rhs => lhs ^^^ rhs)

/-- LSHIFT and RSHIFT, 43_alu R157, R158: the amount is the whole 16-bit value. -/
def Obligations.ShiftsUseTheWholeAmount : Prop :=
  BinaryRule .lshift 0x0E (fun _ => true) (fun lhs rhs => (lhs * 2 ^ rhs) % 65536) ∧
  BinaryRule .rshift 0x0F (fun _ => true) (fun lhs rhs => lhs / 2 ^ rhs)

/-- EQUALS and LESSTHAN, 43_alu R159, R160. -/
def Obligations.ComparisonsYieldZeroOrOne : Prop :=
  BinaryRule .equals 0x10 (fun _ => true) (fun lhs rhs => if lhs = rhs then 1 else 0) ∧
  BinaryRule .lessthan 0x11 (fun _ => true) (fun lhs rhs => if lhs < rhs then 1 else 0)

/-- INPUT, 44_grid_io R181. -/
def Obligations.InputReadsGridCell : Prop :=
  (∀ a b, encode (.input a b) = formatT 0x12 a b) ∧
  (∀ (s : State) (a b : Field), s.config.dialect = .stack → s.tos = s.stack.length →
    (∀ base xc y, s.stack = base ++ [xc, y] → InputAt s (.input a b) base base.length xc y) ∧
    (s.stack.length < 2 → exec (.input a b) s = .next (recorded s 4))) ∧
  (∀ (s : State) (a b : Field), s.config.dialect = .register →
    (∀ (_ : a.toNat < 8) (_ : b.toNat < 8),
      InputAt s (.input a b) s.stack s.tos (incremented s)[a.toNat] (incremented s)[b.toNat]) ∧
    (8 ≤ a.toNat ∨ 8 ≤ b.toNat → exec (.input a b) s = .next (recorded s 3)))

/-- OUTPUT, 44_grid_io R182. The premise is the invariant, of which it needs that the output grid holds its canonical
form and that `tos` counts the stack. -/
def Obligations.OutputWritesOneGridCell : Prop :=
  (∀ a b, encode (.output a b) = formatT 0x13 a b) ∧
  (∀ (s : State) (a b : Field), s.config.dialect = .stack → s.Inv →
    (∀ base xc y, s.stack = base ++ [xc, y] → OutputAt s (.output a b) base base.length xc y) ∧
    (s.stack.length < 2 → exec (.output a b) s = .next (recorded s 4))) ∧
  (∀ (s : State) (a b : Field), s.config.dialect = .register → s.Inv →
    (∀ (_ : a.toNat < 8) (_ : b.toNat < 8),
      OutputAt s (.output a b) s.stack s.tos (incremented s)[a.toNat] (incremented s)[b.toNat]) ∧
    (8 ≤ a.toNat ∨ 8 ≤ b.toNat → exec (.output a b) s = .next (recorded s 3)))

/-! ### Encoding and decoding -/

/-- Decoding an encoded instruction gives it back with every operand at every value, and every word that decodes is
the word of the instruction it decodes to (30_encoding R81, R82). -/
def Obligations.DecodeInvertsEncode : Prop :=
  (∀ i : Instr, decode (encode i) = .ok i) ∧ ∀ (w : InstrWord) (i : Instr), decode w = .ok i → encode i = w

/-- The worked encodings of 30_encoding R90: the loader makes each word of its triple, and the word decodes to the
triple's opcode. -/
def Obligations.WorkedEncodingsDecode : Prop :=
  ∀ p ∈ workedEncodings,
    (loadTriple p.1).toNat = p.2 ∧ (decodeTableWord 40 p.2).map Instr.opcode = p.1.tag

/-- The loader's words behave as their triples (30_encoding R84): an unknown tag decodes to nothing; a known tag decodes
to its opcode; a register-role operand is in [0, 7] exactly when the integer is, and then names it; CONST's immediate
is `k mod 65536`. -/
def Obligations.LoaderKeepsTripleMeaning : Prop :=
  (∀ a b : Int, InstrWord.op (loadTriple ⟨none, a, b⟩) = 0 ∧ ∃ e, decode (loadTriple ⟨none, a, b⟩) = .error e) ∧
  (∀ (op : Opcode) (a b : Int), ∃ i,
    decode (loadTriple ⟨some op, a, b⟩) = .ok i ∧ i.opcode = op ∧
    (i.a.toNat ≤ 7 ↔ 0 ≤ a ∧ a ≤ 7) ∧ (0 ≤ a ∧ a ≤ 7 → (i.a.toNat : Int) = a) ∧
    (op ≠ .const → (i.b.toNat ≤ 7 ↔ 0 ≤ b ∧ b ≤ 7) ∧ (0 ≤ b ∧ b ≤ 7 → (i.b.toNat : Int) = b)) ∧
    (op = .const → (i.b.toNat : Int) = b % 65536))

/-! ### The step cycle -/

/-- A step of a core that is not faulted runs the instruction its word decodes to (40_step_cycle R102, R110): the
fetched one, or the supplied one in place of it. What the step adds around exec: the supplied instruction is
consumed. -/
def Obligations.StepRunsDecodedInstruction : Prop :=
  ∀ (s : State) (i : Instr), s.faulted = false →
    (s.supplied = none → ∀ _ : s.regs[0].toNat < s.prog.length,
      decode s.prog[s.regs[0].toNat] = .ok i → step s = exec i s) ∧
    (∀ w, s.supplied = some w → decode w = .ok i → step s = exec i { s with supplied := none })

/-- An injected instruction runs in place of the fetched one whether or not the machine is runnable, is decoded like a
fetched one, raises no HaltedMachine, and is refused with no effect on a faulted core (40_step_cycle R103). -/
def Obligations.InjectedInstructionRuns : Prop :=
  ∀ (s : State) (w : InstrWord), s.supplied = none →
    (s.faulted = false → ∀ i, decode w = .ok i → stepWith w s = exec i s) ∧
    (s.faulted = false → ∀ e, decode w = .error e → stepWith w s = .next (recorded s 2)) ∧
    (s.faulted = false → s.faultCode = 0 → ∀ t, stepWith w s = .next t → t.faultCode ≠ 1) ∧
    (s.faulted = true → stepWith w s = .next s)

/-- A step with no injected instruction and `x[0] ≥ L` raises HaltedMachine, whatever else holds (40_step_cycle R104),
and it is raised in no other case (60_exceptions R201). -/
def Obligations.HaltedStepRaisesHaltedMachine : Prop :=
  ∀ s : State, s.faulted = false → s.supplied = none →
    (s.prog.length ≤ s.regs[0].toNat → step s = .next (recorded s 1)) ∧
    (s.regs[0].toNat < s.prog.length → s.faultCode = 0 → ∀ t, step s = .next t → t.faultCode ≠ 1)

/-- UnrecognizedInstruction is raised exactly on the words of 60_exceptions R202, fetched or injected, whatever their
operands. -/
def Obligations.UnrecognizedWordsFault : Prop :=
  (∀ (s : State) (w : InstrWord), s.faulted = false → s.faultCode = 0 → nextWord s = .ok w →
    (illegalOp s.config w → step s = .next (recorded { s with supplied := none } 2)) ∧
    (¬illegalOp s.config w → ∀ t, step s = .next t → t.faultCode ≠ 2)) ∧
  ∀ (c : Config) (a b : Int), illegalOp c (loadTriple ⟨none, a, b⟩)

/-- Every register-role field is checked before any effect, whether or not it would be read, and an unused field never
is (40_step_cycle R107). -/
def Obligations.RegisterFieldsAreChecked : Prop :=
  ∀ (s : State) (i : Instr), ¬illegalOp s.config (encode i) →
    ((∃ f ∈ registerFields s.config.dialect i, 7 < f.toNat) → exec i s = .next (recorded s 3)) ∧
    ((∀ f ∈ registerFields s.config.dialect i, f.toNat ≤ 7) → s.faultCode = 0 →
      ∀ t, exec i s = .next t → t.faultCode ≠ 3)

/-- A field the opcode does not use in the configured dialect has no effect, and the decoder accepts any value there
(30_encoding R87). -/
def Obligations.UnusedFieldsAreIgnored : Prop :=
  (∀ (s : State) (i j : Instr), i.opcode = j.opcode →
    usedFields s.config.dialect i = usedFields s.config.dialect j → exec i s = exec j s) ∧
  ∀ (op : Opcode) (a b : Field), decode (formatT op.number a b) = .ok (Instr.make op a b)

/-- The step is total: it answers a next state in every state, for every instruction, and the next state of a core not
faulted before is either not faulted or carries exactly one fault code, 1 to 6 (40_step_cycle R100; 90_conflicts
C7). -/
def Obligations.StepIsTotal : Prop :=
  ∀ s : State, ∃ t, step s = .next t ∧
    (s.faulted = false → s.faultCode = 0 →
      (t.faulted = false ∧ t.faultCode = 0) ∨ (t.faulted = true ∧ 1 ≤ t.faultCode.toNat ∧ t.faultCode.toNat ≤ 6))

/-- Every step that completes leaves the PC at the incremented value, modulo 65536, unless the instruction names
register 0 as its destination or is JUMPIF (40_step_cycle R109, R111). -/
def Obligations.PcAdvancesUnlessWritten : Prop :=
  ∀ (s t : State) (i : Instr), s.faulted = false → exec i s = .next t → t.faulted = false →
    0#16 ∉ destinations s.config.dialect i → i.opcode ≠ .jumpif →
    t.regs[0].toNat = (s.regs[0].toNat + 1) % 65536

/-- No instruction writes a register other than the PC, its destination operand and, for INPUT, the I/O register
(10_state R27): BOS and registers 3 to 7 are written by no instruction implicitly. -/
def Obligations.OnlyDestinationRegistersChange : Prop :=
  ∀ (s t : State) (i : Instr) (r : Fin 8), exec i s = .next t → r ≠ 0 →
    BitVec.ofNat 16 r.val ∉ destinations s.config.dialect i → (i.opcode = .input → r ≠ 2) →
    t.regs[r] = s.regs[r]

/-- The program store, the input grid and the configuration never change in a step (00_scope R10). -/
def Obligations.ParametersNeverChange : Prop :=
  ∀ s t : State, step s = .next t → t.prog = s.prog ∧ t.gridIn = s.gridIn ∧ t.config = s.config

/-- Only OUTPUT changes the output grid (10_state R34), and it changes at most the one cell of its coordinates
(44_grid_io R182; 40_step_cycle R112): the coordinates are those `operandPair` gives OUTPUT's fields in the state with
the incremented PC, and every cell but theirs reads as before. Where there are no coordinates, and where OUTPUT raises a
fault, the whole grid is unchanged. -/
def Obligations.OnlyOutputWritesOutputGrid : Prop :=
  (∀ (s t : State) (i : Instr), exec i s = .next t → i.opcode ≠ .output → t.gridOut = s.gridOut) ∧
  ∀ (s t : State) (a b : Field), exec (.output a b) s = .next t →
    (∀ (xc y : Word) (u : State), operandPair a b s.advancePc = .ok (xc, y, u) →
      ∀ key, key ≠ gridKey xc.toNat y.toNat → Memory.read t.gridOut key = Memory.read s.gridOut key) ∧
    (∀ k, operandPair a b s.advancePc = .error k → t.gridOut = s.gridOut) ∧
    (s.faulted = false → t.faulted = true → t.gridOut = s.gridOut)

/-! ### Isolation -/

/-- The core never reads the output grid (20_memory R59): two states that differ in it alone step to states that
differ in it alone. -/
def Obligations.OutputGridIsNeverRead : Prop :=
  ∀ (s t : State) (g : Memory), step s = .next t →
    ∃ g', step { s with gridOut := g } = .next { t with gridOut := g' }

/-- No instruction reads `tos` and no fault depends on it (10_state R28): two states that differ in it alone step to
states that differ in it alone. -/
def Obligations.TosIsNeverRead : Prop :=
  ∀ (s t : State) (n : Nat), step s = .next t → ∃ n', step { s with tos := n } = .next { t with tos := n' }

/-! ### Faults -/

/-- A step that raises a fault changes nothing but the fault record, which gets the code of a fault kind (60_exceptions
R205); the supplied instruction, the model's own field, is consumed, as by any step. -/
def Obligations.FaultsArePrecise : Prop :=
  ∀ s t : State, s.faulted = false → step s = .next t → t.faulted = true →
    ∃ k : FaultKind, t = recorded { s with supplied := none } k.code

/-- A fault is final (60_exceptions R206): any number of further steps leaves the whole state, injected steps too, the
request is answered with a refusal, and no transaction but Construct clears the record or changes its code. -/
def Obligations.FaultsAreFinal : Prop :=
  (∀ (s : State) (k : Nat), s.faulted = true → s.supplied = none → Sys2Proof.core.run k s = .next s) ∧
  (∀ (s : State) (ins : ProgramItem), s.faulted = true → s.supplied = none →
    transact .step s = (.refused, s) ∧ transact (.stepWith ins) s = (.refused, s)) ∧
  (∀ (s : State) (r : Request), s.faulted = true → (∀ args, r ≠ .construct args) →
    (transact r s).2.faulted = true ∧ (transact r s).2.faultCode = s.faultCode)

/-- Which fault each instruction can raise in each dialect (60_exceptions R210). -/
def Obligations.FaultsOfEachInstruction : Prop :=
  ∀ (s t : State) (i : Instr), s.faulted = false → StackSound s → exec i s = .next t → t.faulted = true →
    t.faultCode ∈ faultCodes s.config.dialect i ∧
    (t.faultCode = 6 → s.config.stackCapacity ≠ none) ∧ (t.faultCode = 2 → s.config.xorInRegister = false)

/-! ### Reset and invariants -/

/-- What Construct leaves (10_state R37): every register, the stack, `tos`, the output grid and the fault record at
their reset values, and the program, the input grid and the configuration as supplied. -/
def Obligations.ConstructGivesResetValues : Prop :=
  ∀ (args : ConstructArgs) (s : State), construct args = some s →
    (∀ r : Fin 8, s.regs[r] = 0) ∧ s.stack = [] ∧ s.tos = 0 ∧ (∀ x y, s.gridOutAt x y = 0) ∧
    s.faulted = false ∧ s.faultCode = 0 ∧ s.prog = args.program.map ProgramItem.toWord ∧
    s.config = { dialect := args.dialect, n := args.n, xorInRegister := args.xorInRegister,
                 stackCapacity := args.stackCapacity } ∧
    ∀ x y row v, args.gridIn[y]? = some row → row[x]? = some v → ((s.gridInAt x y).toNat : Int) = v

/-- What Construct refuses: a program or an input grid the loader refuses (70_reset_and_hazards R242), and an N outside
00_scope R9's legal values, whose refusal is the MODEL'S CHOICE (DEDUCED, log entry 20: R9 gives the legal values and
says nothing of another). -/
def Obligations.ConstructRefusesBadData : Prop :=
  ∀ args : ConstructArgs,
    (∃ s, construct args = some s) ↔
      (1 ≤ args.n ∧ args.n ≤ 65536) ∧ args.program.length ≤ 65536 ∧ args.gridIn.length = args.n ∧
      ∀ row ∈ args.gridIn, row.length = args.n ∧ ∀ v ∈ row, 0 ≤ v ∧ v ≤ 65535

/-- After construction the PC is 0 and the core is runnable iff `L > 0`; with `L = 0` the first step without an
injected instruction raises HaltedMachine (70_reset_and_hazards R241). -/
def Obligations.EntryPointIsZero : Prop :=
  ∀ (args : ConstructArgs) (s : State), construct args = some s →
    s.regs[0] = 0 ∧ (s.runnable = true ↔ 0 < args.program.length) ∧
    (args.program.length = 0 → step s = .next (recorded s 1))

/-- The model's choice of State.reset (log entries 1, 2, 3 and 4) is one of the spec's constructions: the register
dialect, N = 16, no program and an all-zero input grid. -/
def Obligations.ResetIsAConstruction : Prop :=
  construct { dialect := .register, n := 16, program := [],
              gridIn := List.replicate 16 (List.replicate 16 0) } = some State.reset

/-- The invariant holds at reset and after every construction. -/
def Obligations.ResetMeetsInvariant : Prop :=
  State.reset.Inv ∧ ∀ (args : ConstructArgs) (s : State), construct args = some s → s.Inv

/-- Every step keeps the invariant: the parameters in range, `len(S) ≤ STACK_CAPACITY`, `tos = len(S)`, both grids
canonical and inside N × N, a legal fault record. -/
def Obligations.StepKeepsInvariant : Prop :=
  ∀ s t : State, s.Inv → step s = .next t → t.Inv

/-- Every state a host can reach meets the invariant, whatever instructions it injects. -/
def Obligations.ReachableStatesMeetInvariant : Prop :=
  ∀ s : State, Reachable s → s.Inv

/-! ### Host interface -/

/-- The host-visible registers of 10_state R33, with their fields and legal values, the refusal of a write, and their
values after construction. -/
def Obligations.HostRegistersShowTheirFields : Prop :=
  (∀ s : State, s.Inv →
    hostRegister s 0 = (if s.config.dialect = .register then 1 else 0) + 2 * (if s.config.xorInRegister then 1 else 0) +
      4 * (if s.config.stackCapacity = none then 0 else 1) ∧
    hostRegister s 1 = s.config.n ∧ hostRegister s 2 = s.prog.length ∧
    (∀ c, s.config.stackCapacity = some c → hostRegister s 3 = c) ∧
    hostRegister s 4 = (if s.regs[0].toNat < s.prog.length then 1 else 0) + 2 * (if s.faulted then 1 else 0) +
      4 * s.faultCode.toNat ∧
    (s.faulted = false → hostRegister s 4 < 2) ∧ hostRegister s 4 < 28 ∧
    hostRegister s 5 = s.stack.length ∧ (∀ c, s.config.stackCapacity = some c → hostRegister s 5 ≤ c) ∧
    hostRegister s 6 = hostRegister s 5) ∧
  (∀ (s : State) (n : Fin 7) (v : Nat), transact (.writeHost n v) s = (.refused, s)) ∧
  (∀ (args : ConstructArgs) (s : State), construct args = some s →
    hostRegister s 1 = args.n ∧ hostRegister s 2 = args.program.length ∧
    hostRegister s 4 = (if 0 < args.program.length then 1 else 0) ∧ hostRegister s 5 = 0 ∧ hostRegister s 6 = 0) ∧
  (∀ (d : Dialect) (n : Nat) (program : List ProgramItem) (grid : List (List Int)) (s : State),
    construct { dialect := d, n := n, program := program, gridIn := grid } = some s →
    s.config = { dialect := d, n := n, xorInRegister := true, stackCapacity := none })

/-- The host reads every piece of state between steps and a read changes nothing (10_state R39; the read rows of
60_exceptions R220). -/
def Obligations.HostReadsChangeNothing : Prop :=
  ∀ s : State,
    (∀ r : Fin 8, transact (.readReg r) s = (.value s.regs[r].toNat, s)) ∧
    (∀ i, ∀ _ : i < s.stack.length, transact (.readStack i) s = (.value s.stack[i].toNat, s)) ∧
    (∀ i, s.stack.length ≤ i → transact (.readStack i) s = (.hostError, s)) ∧
    (∀ x y, x < s.config.n → y < s.config.n → transact (.readGridOut x y) s = (.value (s.gridOutAt x y).toNat, s)) ∧
    (∀ x y, s.config.n ≤ x ∨ s.config.n ≤ y → transact (.readGridOut x y) s = (.hostError, s)) ∧
    (∀ n : Fin 7, transact (.readHost n) s = (.value (hostRegister s n), s))

/-- The reply to a step request, Step or StepWith (60_exceptions R220): `ok` exactly when the step completed, the code
of the fault when one was raised, `refused` when the core was already faulted; the state after it is that of the step
without an injected instruction for Step, with the word of the given instruction injected for StepWith. -/
def Obligations.StepRepliesTellTheOutcome : Prop :=
  (∀ s t : State, step { s with supplied := none } = .next t →
    (transact .step s).2 = t ∧
    (s.faulted = true → (transact .step s).1 = .refused) ∧
    (s.faulted = false → t.faulted = true → (transact .step s).1 = .fault t.faultCode) ∧
    (s.faulted = false → t.faulted = false → (transact .step s).1 = .ok)) ∧
  ∀ (s t : State) (ins : ProgramItem), stepWith ins.toWord s = .next t →
    (transact (.stepWith ins) s).2 = t ∧
    (s.faulted = true → (transact (.stepWith ins) s).1 = .refused) ∧
    (s.faulted = false → t.faulted = true → (transact (.stepWith ins) s).1 = .fault t.faultCode) ∧
    (s.faulted = false → t.faulted = false → (transact (.stepWith ins) s).1 = .ok)

/-- The ends of a run are distinct (40_step_cycle R114): halted means `x[0] ≥ L` and not faulted, faulted means
`FAULTED = 1`, so no state shows both; a run that shows an end does not run forever; and a faulted end stays faulted
whatever number of steps the host still requests, so it never turns into the successful end. -/
def Obligations.RunEndsAreDistinct : Prop :=
  (∀ s : State, (s.runEnd = some .halted ↔ s.prog.length ≤ s.regs[0].toNat ∧ s.faulted = false) ∧
    (s.runEnd = some .faulted ↔ s.faulted = true)) ∧
  (∀ (s t : State) (k : Nat), Sys2Proof.core.run k s = .next t → t.runEnd ≠ none → ¬s.runsForever) ∧
  (∀ (s t : State) (k : Nat), s.runEnd = some .faulted → Sys2Proof.core.run k s = .next t →
    t.runEnd = some .faulted)

/-- A halted core can run an injected instruction, and one that writes a value below `L` into `x[0]` makes it runnable
again (60_exceptions R219). -/
def Obligations.InjectionRevivesHaltedCore : Prop :=
  ∀ (s : State) (k : Word), s.halted = true → s.supplied = none → s.config.dialect = .register →
    k.toNat < s.prog.length →
    ∃ t, stepWith (formatT 0x01 0 k) s = .next t ∧ t.runnable = true ∧ t.faulted = false ∧ t.regs[0] = k ∧
      t.stack = s.stack ∧ t.gridOut = s.gridOut ∧ ∀ r : Fin 8, r ≠ 0 → t.regs[r] = s.regs[r]

/-- The host's placement of a table word runs exactly that word's instruction next (the model's own withFetchWord, log
entry 16). -/
def Obligations.PlacedWordRunsNext : Prop :=
  ∀ (s : State) (w : Nat) (i : Instr), decodeTableWord 40 w = some i →
    step (s.withFetchWord 40 w) = exec i (s.withFetchWord 40 w)

/-- The reply to Construct (60_exceptions R220): nothing, and the constructed state replaces the one before. That refused
data is answered `refused` and leaves the state before is the MODEL'S CHOICE (DEDUCED, log entry 20). -/
def Obligations.ConstructRepliesTellTheOutcome : Prop :=
  ∀ (s : State) (args : ConstructArgs),
    (∀ t, construct args = some t → transact (.construct args) s = (.nothing, t)) ∧
    (construct args = none → transact (.construct args) s = (.refused, s))
end

