-- ==== Sys2Proof/Laws/Memory.lean ====
section
/-! SUPPORT. The laws of cells by key: a read after a write, the canonical form kept by every operation, and keys of
grid cells. -/

namespace Sys2Proof.Machine

/-- In a canonical memory a key below every listed key reads 0. -/
theorem Memory.read_eq_zero_of_lt {m : Memory} {key : Nat} (h : ∀ p ∈ m, key < p.1) : Memory.read m key = 0 := by
  induction m with
  | nil => rfl
  | cons p rest ih =>
    obtain ⟨k, v⟩ := p
    have hk : key < k := h (k, v) (by simp)
    rw [Memory.read, if_neg (by omega)]
    exact ih fun p hp => h p (by simp [hp])

/-- Reading the cell just written gives the value written. -/
theorem Memory.read_write_same {m : Memory} (h : Memory.wf m) (key : Nat) (v : Word) :
    Memory.read (Memory.write m key v) key = v := by
  induction m with
  | nil =>
    unfold Memory.write
    split_ifs with hv
    · exact hv.symm
    · simp [Memory.read]
  | cons p rest ih =>
    obtain ⟨k, w⟩ := p
    obtain ⟨hs, hz⟩ := h
    rw [List.pairwise_cons] at hs
    have hrest : Memory.wf rest := ⟨hs.2, fun q hq => hz q (by simp [hq])⟩
    have habove : ∀ q ∈ rest, k < q.1 := fun q hq => hs.1 q hq
    unfold Memory.write
    split_ifs with h1 h2 h3 h4
    · subst h2
      exact Memory.read_eq_zero_of_lt fun q hq => by
        rcases List.mem_cons.1 hq with rfl | hq
        · exact h1
        · exact h1.trans (habove q hq)
    · simp [Memory.read]
    · subst h3 h4
      exact Memory.read_eq_zero_of_lt habove
    · simp [Memory.read]
    · rw [Memory.read, if_neg (by omega)]
      exact ih hrest

/-- Every other cell reads as before. -/
theorem Memory.read_write_ne {m : Memory} {key other : Nat} (h : key ≠ other) (v : Word) :
    Memory.read (Memory.write m key v) other = Memory.read m other := by
  induction m with
  | nil =>
    unfold Memory.write
    split_ifs
    · rfl
    · simp [Memory.read, h]
  | cons p rest ih =>
    obtain ⟨k, w⟩ := p
    unfold Memory.write
    split_ifs with h1 h2 h3 h4 <;> simp only [Memory.read]
    · simp [h]
    · rw [if_neg (by omega)]
    · subst h3; simp [h]
    · rw [ih]

/-- A listed cell after a write is the written one or was listed before. -/
theorem Memory.mem_write {m : Memory} {key : Nat} {v : Word} {p : Nat × Word} (h : p ∈ Memory.write m key v) :
    (p = (key, v) ∧ v ≠ 0) ∨ p ∈ m := by
  induction m with
  | nil =>
    by_cases hv : v = 0
    · simp [Memory.write, hv] at h
    · simp only [Memory.write, if_neg hv, List.mem_singleton] at h
      exact .inl ⟨h, hv⟩
  | cons q rest ih =>
    obtain ⟨k, w⟩ := q
    unfold Memory.write at h
    split_ifs at h with h1 h2 h3 h4
    · exact .inr h
    · rcases List.mem_cons.1 h with rfl | h
      · exact .inl ⟨rfl, h2⟩
      · exact .inr h
    · exact .inr (List.mem_cons_of_mem _ h)
    · rcases List.mem_cons.1 h with rfl | h
      · exact .inl ⟨rfl, h4⟩
      · exact .inr (List.mem_cons_of_mem _ h)
    · rcases List.mem_cons.1 h with rfl | h
      · exact .inr (by simp)
      · exact (ih h).imp_right (List.mem_cons_of_mem _)

/-- A write keeps the canonical form. -/
theorem Memory.write_wf {m : Memory} (h : Memory.wf m) (key : Nat) (v : Word) : Memory.wf (Memory.write m key v) := by
  refine ⟨?_, fun p hp => ?_⟩
  · induction m with
    | nil =>
      unfold Memory.write
      split_ifs <;> simp
    | cons p rest ih =>
      obtain ⟨k, w⟩ := p
      obtain ⟨hs, hz⟩ := h
      have hs' := List.pairwise_cons.1 hs
      have hrest : Memory.wf rest := ⟨hs'.2, fun q hq => hz q (by simp [hq])⟩
      unfold Memory.write
      split_ifs with h1 h2 h3 h4
      · exact hs
      · refine List.pairwise_cons.2 ⟨fun q hq => ?_, hs⟩
        rcases List.mem_cons.1 hq with rfl | hq
        · exact h1
        · exact h1.trans (hs'.1 q hq)
      · exact hs'.2
      · subst h3
        exact List.pairwise_cons.2 ⟨hs'.1, hs'.2⟩
      · refine List.pairwise_cons.2 ⟨fun q hq => ?_, ih hrest⟩
        rcases Memory.mem_write hq with ⟨rfl, _⟩ | hq
        · change k < key; omega
        · exact hs'.1 q hq
  · rcases Memory.mem_write hp with ⟨rfl, hv⟩ | hp
    · exact hv
    · exact h.2 p hp

/-- A write inside N × N keeps every listed cell inside. -/
theorem Memory.write_inGrid {m : Memory} {n x y : Nat} (h : Memory.inGrid m n) (hx : x < n) (hy : y < n)
    (hb : x < 65536) (v : Word) : Memory.inGrid (Memory.write m (gridKey x y) v) n := by
  intro p hp
  rcases Memory.mem_write hp with ⟨rfl, _⟩ | hp
  · simp only [gridKey]; omega
  · exact h p hp

/-- Two coordinate pairs below 65536 share a key only if they are the same pair. -/
theorem gridKey_inj {x y x' y' : Nat} (hx : x < 65536) (hx' : x' < 65536) (h : gridKey x y = gridKey x' y') :
    x = x' ∧ y = y' := by
  simp only [gridKey] at h; omega

/-- Loading a row keeps the canonical form. -/
theorem loadRow_wf {m : Memory} (h : Memory.wf m) (y x : Nat) (vs : List Int) : Memory.wf (loadRow y x vs m) := by
  induction vs generalizing x m with
  | nil => exact h
  | cons v vs ih => exact ih (Memory.write_wf h _ _) _

/-- Loading rows keeps the canonical form. -/
theorem loadRows_wf {m : Memory} (h : Memory.wf m) (y : Nat) (rows : List (List Int)) :
    Memory.wf (loadRows y rows m) := by
  induction rows generalizing y m with
  | nil => exact h
  | cons row rows ih => exact ih (loadRow_wf h _ _ _) _

/-- The empty memory is canonical. -/
theorem Memory.wf_nil : Memory.wf [] := by simp [Memory.wf]

end Sys2Proof.Machine
end

