-- ==== Sys2Proof/Laws/State.lean ====
section
/-! SUPPORT. The small lemmas of State: one per field per update, and the reads of registers after an update. -/

namespace Sys2Proof.Machine

/-! ### setReg -/

@[simp] theorem State.setReg_regs (s : State) (r : Fin 8) (v : Word) : (s.setReg r v).regs = s.regs.set r v := rfl

@[simp] theorem State.setReg_stack (s : State) (r : Fin 8) (v : Word) : (s.setReg r v).stack = s.stack := rfl

@[simp] theorem State.setReg_tos (s : State) (r : Fin 8) (v : Word) : (s.setReg r v).tos = s.tos := rfl

@[simp] theorem State.setReg_gridOut (s : State) (r : Fin 8) (v : Word) : (s.setReg r v).gridOut = s.gridOut := rfl

@[simp] theorem State.setReg_faulted (s : State) (r : Fin 8) (v : Word) : (s.setReg r v).faulted = s.faulted := rfl

@[simp] theorem State.setReg_faultCode (s : State) (r : Fin 8) (v : Word) : (s.setReg r v).faultCode = s.faultCode := rfl

@[simp] theorem State.setReg_prog (s : State) (r : Fin 8) (v : Word) : (s.setReg r v).prog = s.prog := rfl

@[simp] theorem State.setReg_gridIn (s : State) (r : Fin 8) (v : Word) : (s.setReg r v).gridIn = s.gridIn := rfl

@[simp] theorem State.setReg_config (s : State) (r : Fin 8) (v : Word) : (s.setReg r v).config = s.config := rfl

@[simp] theorem State.setReg_supplied (s : State) (r : Fin 8) (v : Word) : (s.setReg r v).supplied = s.supplied := rfl

/-! ### advancePc -/

@[simp] theorem State.advancePc_regs (s : State) : (s.advancePc).regs = s.regs.set 0 (s.pc + 1) := rfl

@[simp] theorem State.advancePc_stack (s : State) : (s.advancePc).stack = s.stack := rfl

@[simp] theorem State.advancePc_tos (s : State) : (s.advancePc).tos = s.tos := rfl

@[simp] theorem State.advancePc_gridOut (s : State) : (s.advancePc).gridOut = s.gridOut := rfl

@[simp] theorem State.advancePc_faulted (s : State) : (s.advancePc).faulted = s.faulted := rfl

@[simp] theorem State.advancePc_faultCode (s : State) : (s.advancePc).faultCode = s.faultCode := rfl

@[simp] theorem State.advancePc_prog (s : State) : (s.advancePc).prog = s.prog := rfl

@[simp] theorem State.advancePc_gridIn (s : State) : (s.advancePc).gridIn = s.gridIn := rfl

@[simp] theorem State.advancePc_config (s : State) : (s.advancePc).config = s.config := rfl

@[simp] theorem State.advancePc_supplied (s : State) : (s.advancePc).supplied = s.supplied := rfl

/-! ### takeFault -/

@[simp] theorem State.takeFault_regs (s : State) (k : FaultKind) : (s.takeFault k).regs = s.regs := rfl

@[simp] theorem State.takeFault_stack (s : State) (k : FaultKind) : (s.takeFault k).stack = s.stack := rfl

@[simp] theorem State.takeFault_tos (s : State) (k : FaultKind) : (s.takeFault k).tos = s.tos := rfl

@[simp] theorem State.takeFault_gridOut (s : State) (k : FaultKind) : (s.takeFault k).gridOut = s.gridOut := rfl

@[simp] theorem State.takeFault_faulted (s : State) (k : FaultKind) : (s.takeFault k).faulted = true := rfl

@[simp] theorem State.takeFault_faultCode (s : State) (k : FaultKind) : (s.takeFault k).faultCode = k.code := rfl

@[simp] theorem State.takeFault_prog (s : State) (k : FaultKind) : (s.takeFault k).prog = s.prog := rfl

@[simp] theorem State.takeFault_gridIn (s : State) (k : FaultKind) : (s.takeFault k).gridIn = s.gridIn := rfl

@[simp] theorem State.takeFault_config (s : State) (k : FaultKind) : (s.takeFault k).config = s.config := rfl

@[simp] theorem State.takeFault_supplied (s : State) (k : FaultKind) : (s.takeFault k).supplied = s.supplied := rfl

/-! ### takeRequest -/

@[simp] theorem State.takeRequest_regs (s : State) : (s.takeRequest).regs = s.regs := rfl

@[simp] theorem State.takeRequest_stack (s : State) : (s.takeRequest).stack = s.stack := rfl

@[simp] theorem State.takeRequest_tos (s : State) : (s.takeRequest).tos = s.tos := rfl

@[simp] theorem State.takeRequest_gridOut (s : State) : (s.takeRequest).gridOut = s.gridOut := rfl

@[simp] theorem State.takeRequest_faulted (s : State) : (s.takeRequest).faulted = s.faulted := rfl

@[simp] theorem State.takeRequest_faultCode (s : State) : (s.takeRequest).faultCode = s.faultCode := rfl

@[simp] theorem State.takeRequest_prog (s : State) : (s.takeRequest).prog = s.prog := rfl

@[simp] theorem State.takeRequest_gridIn (s : State) : (s.takeRequest).gridIn = s.gridIn := rfl

@[simp] theorem State.takeRequest_config (s : State) : (s.takeRequest).config = s.config := rfl

@[simp] theorem State.takeRequest_supplied (s : State) : (s.takeRequest).supplied = none := rfl

/-! ### withWordAtPc -/

@[simp] theorem State.withWordAtPc_regs (s : State) (w : InstrWord) : (s.withWordAtPc w).regs = s.regs := rfl

@[simp] theorem State.withWordAtPc_stack (s : State) (w : InstrWord) : (s.withWordAtPc w).stack = s.stack := rfl

@[simp] theorem State.withWordAtPc_tos (s : State) (w : InstrWord) : (s.withWordAtPc w).tos = s.tos := rfl

@[simp] theorem State.withWordAtPc_gridOut (s : State) (w : InstrWord) : (s.withWordAtPc w).gridOut = s.gridOut := rfl

@[simp] theorem State.withWordAtPc_faulted (s : State) (w : InstrWord) : (s.withWordAtPc w).faulted = false := rfl

@[simp] theorem State.withWordAtPc_faultCode (s : State) (w : InstrWord) : (s.withWordAtPc w).faultCode = 0 := rfl

@[simp] theorem State.withWordAtPc_prog (s : State) (w : InstrWord) : (s.withWordAtPc w).prog = placeWord s.prog s.pc.toNat w := rfl

@[simp] theorem State.withWordAtPc_gridIn (s : State) (w : InstrWord) : (s.withWordAtPc w).gridIn = s.gridIn := rfl

@[simp] theorem State.withWordAtPc_config (s : State) (w : InstrWord) : (s.withWordAtPc w).config = s.config := rfl

@[simp] theorem State.withWordAtPc_supplied (s : State) (w : InstrWord) : (s.withWordAtPc w).supplied = none := rfl

/-! ### Registers after an update -/

theorem State.pc_eq (s : State) : s.pc = s.reg 0 := rfl

theorem State.reg_setReg (s : State) (r q : Fin 8) (v : Word) :
    (s.setReg r v).reg q = if r = q then v else s.reg q := by
  simp [State.reg, State.setReg, Vector.getElem_set, Fin.ext_iff]

@[simp] theorem State.reg_setReg_same (s : State) (r : Fin 8) (v : Word) : (s.setReg r v).reg r = v := by
  simp [State.reg_setReg]

theorem State.reg_setReg_ne (s : State) {r q : Fin 8} (h : r ≠ q) (v : Word) : (s.setReg r v).reg q = s.reg q := by
  simp [State.reg_setReg, h]

theorem State.reg_advancePc (s : State) (q : Fin 8) :
    s.advancePc.reg q = if q = 0 then s.pc + 1 else s.reg q := by
  simp only [State.advancePc, State.reg_setReg, eq_comm]

@[simp] theorem State.reg_advancePc_zero (s : State) : s.advancePc.reg 0 = s.pc + 1 := by
  simp [State.reg_advancePc]

theorem State.reg_advancePc_ne (s : State) {q : Fin 8} (h : q ≠ 0) : s.advancePc.reg q = s.reg q := by
  simp [State.reg_advancePc, h]

@[simp] theorem State.pc_advancePc (s : State) : s.advancePc.pc = s.pc + 1 := by
  simp [State.pc]

@[simp] theorem State.reg_takeFault (s : State) (k : FaultKind) (q : Fin 8) : (s.takeFault k).reg q = s.reg q := rfl

@[simp] theorem State.pc_takeFault (s : State) (k : FaultKind) : (s.takeFault k).pc = s.pc := rfl

@[simp] theorem State.reg_takeRequest (s : State) (q : Fin 8) : s.takeRequest.reg q = s.reg q := rfl

@[simp] theorem State.pc_takeRequest (s : State) : s.takeRequest.pc = s.pc := rfl

@[simp] theorem State.reg_initial (c : Config) (p : List InstrWord) (g : Memory) (q : Fin 8) :
    (State.initial c p g).reg q = 0 := by
  revert q; intro q; fin_cases q <;> rfl

/-- A field that passed the check of R107 names the register of its own value. -/
theorem regIndex_val {f : Field} (h : f.toNat ≤ 7) : (regIndex f).val = f.toNat := by
  simp only [regIndex, Fin.val_ofNat]; omega

end Sys2Proof.Machine
end

