-- ==== Sys2Proof/Laws/Ops.lean ====
section
/-! SUPPORT. One lemma per shared operation saying what it can do; callers cite these instead of unfolding it. -/

namespace Sys2Proof.Machine

/-- A pop on a stack ending in `v` takes `v` off. -/
theorem State.pop_append {s : State} {base : List Word} {v : Word} (h : s.stack = base ++ [v]) :
    s.pop = .ok (v, { s with stack := base, tos := s.tos - 1 }) := by
  simp [State.pop, h]

/-- A pop on an empty stack underflows. -/
theorem State.pop_empty {s : State} (h : s.stack = []) : s.pop = .error .stackUnderflow := by
  simp [State.pop, h]

/-- What a pop can do. -/
theorem State.pop_cases (s : State) :
    (s.stack = [] ∧ s.pop = .error .stackUnderflow) ∨
    ∃ base v, s.stack = base ++ [v] ∧ s.pop = .ok (v, { s with stack := base, tos := s.tos - 1 }) := by
  rcases List.eq_nil_or_concat s.stack with h | ⟨base, v, h⟩
  · exact .inl ⟨h, State.pop_empty h⟩
  · have h' : s.stack = base ++ [v] := by simp [h]
    exact .inr ⟨base, v, h', State.pop_append h'⟩

/-- What a push can do. -/
theorem State.push_cases (s : State) (v : Word) :
    (s.config.stackCapacity = some s.stack.length ∧ s.push v = .error .stackOverflow) ∨
    (s.config.stackCapacity ≠ some s.stack.length ∧
      s.push v = .ok { s with stack := s.stack ++ [v], tos := s.tos + 1 }) := by
  by_cases h : s.config.stackCapacity = some s.stack.length <;> simp [State.push, h]

/-- What an indexed read can do. -/
theorem State.memRead_cases (s : State) (addr : Nat) :
    (s.stack.length ≤ addr ∧ s.memRead addr = .error .stackUnderflow) ∨
    ∃ h : addr < s.stack.length, s.memRead addr = .ok s.stack[addr] := by
  rcases Nat.lt_or_ge addr s.stack.length with h | h
  · exact .inr ⟨h, by simp [State.memRead, h]⟩
  · exact .inl ⟨h, by simp [State.memRead, h]⟩

/-- What an indexed write can do. -/
theorem State.memWrite_cases (s : State) (addr : Nat) (v : Word) :
    (s.stack.length ≤ addr ∧ s.memWrite addr v = .error .stackUnderflow) ∨
    (addr < s.stack.length ∧ s.memWrite addr v = .ok { s with stack := s.stack.set addr v }) := by
  rcases Nat.lt_or_ge addr s.stack.length with h | h
  · exact .inr ⟨h, by simp [State.memWrite, h]⟩
  · exact .inl ⟨h, by simp [State.memWrite, h]⟩

/-- What a grid read can do. -/
theorem State.gridRead_cases (s : State) (x y : Word) :
    (¬(x.toNat < s.config.n ∧ y.toNat < s.config.n) ∧ s.gridRead x y = .error .gridOutOfBounds) ∨
    ((x.toNat < s.config.n ∧ y.toNat < s.config.n) ∧ s.gridRead x y = .ok (s.gridInAt x.toNat y.toNat)) := by
  by_cases h : x.toNat < s.config.n ∧ y.toNat < s.config.n
  · exact .inr ⟨h, by rw [State.gridRead, if_pos h]⟩
  · exact .inl ⟨h, by rw [State.gridRead, if_neg h]⟩

/-- What a grid write can do. -/
theorem State.gridWrite_cases (s : State) (x y v : Word) :
    (¬(x.toNat < s.config.n ∧ y.toNat < s.config.n) ∧ s.gridWrite x y v = .error .gridOutOfBounds) ∨
    ((x.toNat < s.config.n ∧ y.toNat < s.config.n) ∧
      s.gridWrite x y v = .ok { s with gridOut := Memory.write s.gridOut (gridKey x.toNat y.toNat) v }) := by
  by_cases h : x.toNat < s.config.n ∧ y.toNat < s.config.n
  · exact .inr ⟨h, by rw [State.gridWrite, if_pos h]⟩
  · exact .inl ⟨h, by rw [State.gridWrite, if_neg h]⟩

/-- One operand in the stack dialect is the popped element. -/
theorem operand_stack {t : State} (h : t.config.dialect = .stack) (f : Field) : operand f t = t.pop := by
  simp [operand, h]

/-- One operand in the register dialect is the named register. -/
theorem operand_register {t : State} (h : t.config.dialect = .register) (f : Field) :
    operand f t = .ok (t.reg (regIndex f), t) := by
  simp [operand, h]

/-- Two operands in the register dialect are the named registers. -/
theorem operandPair_register {t : State} (h : t.config.dialect = .register) (a b : Field) :
    operandPair a b t = .ok (t.reg (regIndex a), t.reg (regIndex b), t) := by
  simp [operandPair, h]

/-- Two operands in the stack dialect are the two newest elements, the older one first. -/
theorem operandPair_stack {t : State} (h : t.config.dialect = .stack) {base : List Word} {first second : Word}
    (hs : t.stack = base ++ [first, second]) (a b : Field) :
    operandPair a b t = .ok (first, second, { t with stack := base, tos := t.tos - 2 }) := by
  have h1 : t.stack = (base ++ [first]) ++ [second] := by simp [hs]
  have h2 := State.pop_append (s := { t with stack := base ++ [first], tos := t.tos - 1 }) rfl
  simp only [operandPair, h, State.pop_append h1, h2, bind, Except.bind, Nat.sub_sub]

/-- Two operands in the stack dialect need two elements (60_exceptions R204). -/
theorem operandPair_underflow {t : State} (h : t.config.dialect = .stack) (hs : t.stack.length < 2) (a b : Field) :
    operandPair a b t = .error .stackUnderflow := by
  rcases t.pop_cases with ⟨_, hp⟩ | ⟨base, v, hb, hp⟩
  · simp [operandPair, h, hp, bind, Except.bind]
  · have : base = [] := by
      have := congrArg List.length hb
      simp at this
      exact List.eq_nil_of_length_eq_zero (by omega)
    subst this
    have h2 := State.pop_empty (s := { t with stack := [], tos := t.tos - 1 }) rfl
    simp only [operandPair, h, hp, h2, bind, Except.bind]

/-- The delivery of a result. -/
theorem deliver_stack {t : State} (h : t.config.dialect = .stack) (a : Field) (v : Word) : deliver a v t = t.push v := by
  simp [deliver, h]

/-- The delivery of a result in the register dialect. -/
theorem deliver_register {t : State} (h : t.config.dialect = .register) (a : Field) (v : Word) :
    deliver a v t = .ok (t.setReg (regIndex a) v) := by
  simp [deliver, h]

/-- The decode checks pass exactly on the well-formed instructions. -/
theorem decodeChecks_ok_iff (c : Config) (i : Instr) : decodeChecks c i = .ok () ↔ i.wellFormed c = true := by
  unfold decodeChecks Instr.wellFormed
  cases decodable c i.opcode <;> cases registersInRange c i <;> simp

/-- A well-formed instruction runs its effect on the state with the incremented PC. -/
theorem perform_wellFormed {i : Instr} {s : State} (h : i.wellFormed s.config = true)
    (effect : State → Except FaultKind State) : perform i effect s = commit s (effect s.advancePc) := by
  simp [perform, (decodeChecks_ok_iff s.config i).2 h, bind, Except.bind]

/-- An instruction that is not decodable raises UnrecognizedInstruction. -/
theorem perform_undecodable {i : Instr} {s : State} (h : decodable s.config i.opcode = false)
    (effect : State → Except FaultKind State) : perform i effect s = .next (s.takeFault .unrecognizedInstruction) := by
  simp [perform, decodeChecks, h, bind, Except.bind, commit]

/-- A decodable instruction with a register-role field out of range raises RegisterOutOfRange. -/
theorem perform_outOfRange {i : Instr} {s : State} (h : decodable s.config i.opcode = true)
    (hr : registersInRange s.config i = false) (effect : State → Except FaultKind State) :
    perform i effect s = .next (s.takeFault .registerOutOfRange) := by
  simp [perform, decodeChecks, h, hr, bind, Except.bind, commit]

/-- What an instruction's frame can do: a fault taken on the state before it, or its own completed effect. -/
theorem perform_cases (i : Instr) (effect : State → Except FaultKind State) (s : State) :
    (∃ k, perform i effect s = .next (s.takeFault k)) ∨
    (i.wellFormed s.config = true ∧ ∃ t, effect s.advancePc = .ok t ∧ perform i effect s = .next t) := by
  by_cases h : i.wellFormed s.config = true
  · rw [perform_wellFormed h]
    cases he : effect s.advancePc with
    | error k => exact .inl ⟨k, rfl⟩
    | ok t => exact .inr ⟨h, t, rfl, rfl⟩
  · refine .inl ?_
    cases hd : decodeChecks s.config i with
    | ok u => exact absurd ((decodeChecks_ok_iff s.config i).1 hd) h
    | error k => exact ⟨k, by simp [perform, hd, bind, Except.bind, commit]⟩

end Sys2Proof.Machine
end

