-- ==== Sys2Proof/Laws/PerInstr.lean ====
section
/-! SUPPORT. A fact of every instruction as syntax, constructor by constructor: its word's three fields are its opcode
number and its two operands, and its opcode number names its opcode (30_encoding R81, R82). -/

namespace Sys2Proof.Laws.WordFields

/-- The fields of the encoded word are the instruction's, and the number leads back to the opcode. -/
def Statement (i : Instr) : Prop :=
  InstrWord.op (encode i) = i.opcode.number ∧ InstrWord.a (encode i) = i.a ∧ InstrWord.b (encode i) = i.b ∧
    Opcode.ofNumber i.opcode.number = some i.opcode

/-- Taking the three fields apart again, for any values. -/
theorem fields_of_append (op : BitVec 8) (a b : Field) :
    InstrWord.op (op ++ a ++ b) = op ∧ InstrWord.a (op ++ a ++ b) = a ∧ InstrWord.b (op ++ a ++ b) = b := by
  unfold InstrWord.op InstrWord.a InstrWord.b
  refine ⟨?_, ?_, ?_⟩
  · apply BitVec.eq_of_getLsbD_eq
    intro k hk
    simp only [BitVec.getLsbD_extractLsb', BitVec.getLsbD_append, hk, decide_true, Bool.true_and]
    rw [if_neg (by omega), if_neg (by omega)]
    congr 1; omega
  · apply BitVec.eq_of_getLsbD_eq
    intro k hk
    simp only [BitVec.getLsbD_extractLsb', BitVec.getLsbD_append, hk, decide_true, Bool.true_and]
    rw [if_neg (by omega), if_pos (by omega)]
    congr 1; omega
  · apply BitVec.eq_of_getLsbD_eq
    intro k hk
    simp only [BitVec.getLsbD_extractLsb', BitVec.getLsbD_append, hk, decide_true, Bool.true_and]
    rw [if_pos (by omega)]
    congr 1; omega

/-- The statement from the fact about opcode numbers alone. -/
theorem of_number {i : Instr} (h : Opcode.ofNumber i.opcode.number = some i.opcode) : Statement i :=
  ⟨(fields_of_append _ _ _).1, (fields_of_append _ _ _).2.1, (fields_of_append _ _ _).2.2, h⟩

theorem const (a b : Field) : Statement (.const a b) := of_number rfl

theorem push (a b : Field) : Statement (.push a b) := of_number rfl

theorem pop (a b : Field) : Statement (.pop a b) := of_number rfl

theorem load (a b : Field) : Statement (.load a b) := of_number rfl

theorem store (a b : Field) : Statement (.store a b) := of_number rfl

theorem copy (a b : Field) : Statement (.copy a b) := of_number rfl

theorem jumpif (a b : Field) : Statement (.jumpif a b) := of_number rfl

theorem not (a b : Field) : Statement (.not a b) := of_number rfl

theorem add (a b : Field) : Statement (.add a b) := of_number rfl

theorem mult (a b : Field) : Statement (.mult a b) := of_number rfl

theorem and (a b : Field) : Statement (.and a b) := of_number rfl

theorem or (a b : Field) : Statement (.or a b) := of_number rfl

theorem xor (a b : Field) : Statement (.xor a b) := of_number rfl

theorem lshift (a b : Field) : Statement (.lshift a b) := of_number rfl

theorem rshift (a b : Field) : Statement (.rshift a b) := of_number rfl

theorem equals (a b : Field) : Statement (.equals a b) := of_number rfl

theorem lessthan (a b : Field) : Statement (.lessthan a b) := of_number rfl

theorem input (a b : Field) : Statement (.input a b) := of_number rfl

theorem output (a b : Field) : Statement (.output a b) := of_number rfl

end Sys2Proof.Laws.WordFields
end

