-- ==== Sys2Proof/Laws/Step.lean ====
section
/-! SUPPORT. What a step can do, said once: every instruction is its own effect run by `perform`, and a step is one of
three things. Later proofs take these apart instead of unfolding `exec` and `step`. -/

namespace Sys2Proof.Machine

/-- The effect of an instruction, gathered from the meanings; `exec_eq_perform` says it is theirs. -/
def effectOf (i : Instr) (t : State) : Except FaultKind State :=
  match i with
  | .const a b => deliver a b t
  | .push a _ => t.push (t.reg (regIndex a))
  | .pop a _ => do
    let (v, t) ← t.pop
    .ok (t.setReg (regIndex a) v)
  | .load a b => do
    let v ← t.memRead (stackAddress b t)
    .ok (t.setReg (regIndex a) v)
  | .store a b => t.memWrite (stackAddress b t) (t.reg (regIndex a))
  | .copy a b => .ok (t.setReg (regIndex a) (t.reg (regIndex b)))
  | .jumpif a b => do
    let (c, t) ← operand b t
    .ok (if conditionZero c then t.setReg 0 (t.reg (regIndex a)) else t)
  | .not a _ => do
    let (v, t) ← operand a t
    deliver a (aluNot v) t
  | .add a b => binaryEffect aluAdd a b t
  | .mult a b => binaryEffect aluMult a b t
  | .and a b => binaryEffect aluAnd a b t
  | .or a b => binaryEffect aluOr a b t
  | .xor a b => binaryEffect aluXor a b t
  | .lshift a b => binaryEffect aluLshift a b t
  | .rshift a b => binaryEffect aluRshift a b t
  | .equals a b => binaryEffect aluEquals a b t
  | .lessthan a b => binaryEffect aluLessthan a b t
  | .input a b => do
    let (xc, y, t) ← operandPair a b t
    let v ← t.gridRead xc y
    .ok (t.setReg 2 v)
  | .output a b => do
    let (xc, y, t) ← operandPair a b t
    t.gridWrite xc y (t.reg 2)

/-- Every instruction is its effect in the common frame. -/
theorem exec_eq_perform (i : Instr) (s : State) : exec i s = perform i (effectOf i) s := by
  cases i <;> rfl

/-- What an instruction can do: one of the two decode faults, a fault of its effect, or its completed effect. -/
theorem exec_cases (i : Instr) (s : State) :
    (decodable s.config i.opcode = false ∧ exec i s = .next (s.takeFault .unrecognizedInstruction)) ∨
    (decodable s.config i.opcode = true ∧ registersInRange s.config i = false ∧
      exec i s = .next (s.takeFault .registerOutOfRange)) ∨
    (i.wellFormed s.config = true ∧ ∃ k, effectOf i s.advancePc = .error k ∧ exec i s = .next (s.takeFault k)) ∨
    (i.wellFormed s.config = true ∧ ∃ t, effectOf i s.advancePc = .ok t ∧ exec i s = .next t) := by
  rw [exec_eq_perform]
  cases hd : decodable s.config i.opcode
  · exact .inl ⟨rfl, perform_undecodable hd _⟩
  · cases hr : registersInRange s.config i
    · exact .inr (.inl ⟨rfl, rfl, perform_outOfRange hd hr _⟩)
    · have hw : i.wellFormed s.config = true := by simp [Instr.wellFormed, hd, hr]
      rw [perform_wellFormed hw]
      cases he : effectOf i s.advancePc with
      | error k => exact .inr (.inr (.inl ⟨hw, k, rfl, rfl⟩))
      | ok t => exact .inr (.inr (.inr ⟨hw, t, rfl, rfl⟩))

/-- What a step can do: refuse on a faulted core, take a fault of the fetch or of decode, or run the instruction. -/
theorem step_cases (s : State) :
    (s.faulted = true ∧ step s = .next s.takeRequest) ∨
    (s.faulted = false ∧ ∃ k, nextInstr s = .error k ∧ step s = .next (s.takeRequest.takeFault k)) ∨
    (s.faulted = false ∧ ∃ i, nextInstr s = .ok i ∧ step s = exec i s.takeRequest) := by
  cases hf : s.faulted
  · cases hn : nextInstr s with
    | error k => exact .inr (.inl ⟨rfl, k, rfl, by simp [step, hf, hn]⟩)
    | ok i => exact .inr (.inr ⟨rfl, i, rfl, by simp [step, hf, hn]⟩)
  · exact .inl ⟨rfl, by simp [step, hf]⟩

/-- The fault codes are 1 to 6 (60_exceptions R200). -/
theorem FaultKind.code_range (k : FaultKind) : 1 ≤ k.code.toNat ∧ k.code.toNat ≤ 6 := by
  cases k <;> decide

/-- With nothing supplied, taking the request changes nothing. -/
theorem State.takeRequest_of_none {s : State} (h : s.supplied = none) : s.takeRequest = s := by
  cases s
  cases h
  rfl

end Sys2Proof.Machine
end

