-- ==== Sys2Proof/Laws/WellFormed.lean ====
section
/-! SUPPORT. Which instructions are well-formed, constructor by constructor, as plain bounds on the operand fields (the
table of 40_step_cycle R106 with the checks of R105 and R107). -/

namespace Sys2Proof

@[simp] theorem Role.admits_reg (u : RegUse) (f : Field) : (Role.reg u).admits f = true ↔ f.toNat ≤ 7 := by
  simp [Role.admits]

@[simp] theorem Role.admits_imm (f : Field) : Role.imm.admits f = true := rfl

@[simp] theorem Role.admits_unused (f : Field) : Role.unused.admits f = true := rfl

/-- The bounds of each instruction: those of fields `a` and `b` where they hold registers, in the register dialect only
where the operands of the stack dialect come from the stack, and XOR's availability. -/
def Instr.fieldBounds (c : Config) : Instr → Prop
  | .const a _ => c.dialect = .register → a.toNat ≤ 7
  | .push a _ => a.toNat ≤ 7
  | .pop a _ => a.toNat ≤ 7
  | .load a b => a.toNat ≤ 7 ∧ b.toNat ≤ 7
  | .store a b => a.toNat ≤ 7 ∧ b.toNat ≤ 7
  | .copy a b => a.toNat ≤ 7 ∧ b.toNat ≤ 7
  | .jumpif a b => a.toNat ≤ 7 ∧ (c.dialect = .register → b.toNat ≤ 7)
  | .not a _ => c.dialect = .register → a.toNat ≤ 7
  | .add a b => c.dialect = .register → a.toNat ≤ 7 ∧ b.toNat ≤ 7
  | .mult a b => c.dialect = .register → a.toNat ≤ 7 ∧ b.toNat ≤ 7
  | .and a b => c.dialect = .register → a.toNat ≤ 7 ∧ b.toNat ≤ 7
  | .or a b => c.dialect = .register → a.toNat ≤ 7 ∧ b.toNat ≤ 7
  | .xor a b => c.dialect = .register → c.xorInRegister = true ∧ a.toNat ≤ 7 ∧ b.toNat ≤ 7
  | .lshift a b => c.dialect = .register → a.toNat ≤ 7 ∧ b.toNat ≤ 7
  | .rshift a b => c.dialect = .register → a.toNat ≤ 7 ∧ b.toNat ≤ 7
  | .equals a b => c.dialect = .register → a.toNat ≤ 7 ∧ b.toNat ≤ 7
  | .lessthan a b => c.dialect = .register → a.toNat ≤ 7 ∧ b.toNat ≤ 7
  | .input a b => c.dialect = .register → a.toNat ≤ 7 ∧ b.toNat ≤ 7
  | .output a b => c.dialect = .register → a.toNat ≤ 7 ∧ b.toNat ≤ 7

/-- An instruction is well-formed exactly when its bounds hold. `(wellFormed_iff c (.add a b)).2` and the like give the
case of one constructor, since `fieldBounds` reduces on it. -/
theorem wellFormed_iff (c : Config) (i : Instr) : i.wellFormed c = true ↔ i.fieldBounds c := by
  cases h : c.dialect <;> cases i <;>
    simp [Instr.wellFormed, Instr.fieldBounds, decodable, registersInRange, operandRoles, Instr.opcode, Instr.a,
      Instr.b, Instr.fields, h]

end Sys2Proof
end

