-- ==== Sys2Proof/Tests/Slice0.lean ====
section
/-! SUPPORT. Tests: words written out from 30_encoding, the checks of WellFormed, one or two steps per instruction with
the results of spec/95_test_vectors.md (its vector number stands in each docstring), and for every obligation with
hypotheses a concrete state that meets them (the theorems named witness). -/

namespace Sys2Proof.Tests

open Sys2Proof Sys2Proof.Machine Sys2Proof.Spec

/-! ### Helpers -/

/-- A stack-dialect machine, N = 16, with these registers and this stack. -/
def stackMachine (regs : Vector Word 8) (stack : List Word) : State :=
  { State.reset with
    regs := regs, stack := stack, tos := stack.length, config := { Config.default with dialect := .stack } }

/-- A register-dialect machine, N = 16, with these registers and this stack. -/
def regMachine (regs : Vector Word 8) (stack : List Word) : State :=
  { State.reset with regs := regs, stack := stack, tos := stack.length }

/-- The same machine with a finite stack capacity. -/
def bounded (capacity : Nat) (s : State) : State := { s with config := { s.config with stackCapacity := some capacity } }

/-- The same machine with XOR_IN_REGISTER_DIALECT false. -/
def noXor (s : State) : State := { s with config := { s.config with xorInRegister := false } }

/-- The same machine with this program. -/
def withProgram (prog : List InstrWord) (s : State) : State := { s with prog := prog }

/-- The same machine with the input grid of 95 section 2.5. -/
def withGrid (s : State) : State :=
  { s with gridIn := [(gridKey 1 1, 8), (gridKey 2 3, 99), (gridKey 15 15, 7)] }

/-- All registers 0. -/
def zeros : Vector Word 8 := #v[0, 0, 0, 0, 0, 0, 0, 0]

/-- The next state, if there is one. -/
def after (o : Host.Outcome State Fault Refusal) : Option State :=
  match o with
  | .next t => some t
  | .fault _ => none
  | .refused _ => none

/-- A register of the next state. -/
def regAfter (r : Fin 8) (o : Host.Outcome State Fault Refusal) : Option Word := (after o).map (fun t => t.reg r)

/-- The stack of the next state. -/
def stackAfter (o : Host.Outcome State Fault Refusal) : Option (List Word) := (after o).map State.stack

/-- The fault code of the next state, 0 when the step completed. -/
def codeAfter (o : Host.Outcome State Fault Refusal) : Option (BitVec 3) := (after o).map State.faultCode

/-- A cell of the output grid of the next state. -/
def cellAfter (x y : Nat) (o : Host.Outcome State Fault Refusal) : Option Word :=
  (after o).map (fun t => t.gridOutAt x y)

/-! ### Decoding: words written out from 30_encoding R81, R82 and R90 -/

theorem test_decode_const : decodeTableWord 40 0x0100030007 = some (.const 3 7) := by decide

theorem test_decode_push : decodeTableWord 40 0x0200030000 = some (.push 3 0) := by decide

theorem test_decode_pop : decodeTableWord 40 0x0300040009 = some (.pop 4 9) := by decide

theorem test_decode_load : decodeTableWord 40 0x0400050007 = some (.load 5 7) := by decide

theorem test_decode_store : decodeTableWord 40 0x0500050007 = some (.store 5 7) := by decide

theorem test_decode_copy : decodeTableWord 40 0x0600030004 = some (.copy 3 4) := by decide

theorem test_decode_jumpif : decodeTableWord 40 0x0700070005 = some (.jumpif 7 5) := by decide

theorem test_decode_not : decodeTableWord 40 0x0800030000 = some (.not 3 0) := by decide

theorem test_decode_add : decodeTableWord 40 0x0900020006 = some (.add 2 6) := by decide

theorem test_decode_mult : decodeTableWord 40 0x0A00050006 = some (.mult 5 6) := by decide

theorem test_decode_and : decodeTableWord 40 0x0B00030004 = some (.and 3 4) := by decide

theorem test_decode_or : decodeTableWord 40 0x0C00030004 = some (.or 3 4) := by decide

theorem test_decode_xor : decodeTableWord 40 0x0D00030004 = some (.xor 3 4) := by decide

theorem test_decode_lshift : decodeTableWord 40 0x0E00030004 = some (.lshift 3 4) := by decide

theorem test_decode_rshift : decodeTableWord 40 0x0F00030004 = some (.rshift 3 4) := by decide

theorem test_decode_equals : decodeTableWord 40 0x1000050007 = some (.equals 5 7) := by decide

theorem test_decode_lessthan : decodeTableWord 40 0x1100000000 = some (.lessthan 0 0) := by decide

theorem test_decode_input : decodeTableWord 40 0x1200030004 = some (.input 3 4) := by decide

theorem test_decode_output : decodeTableWord 40 0x1300030004 = some (.output 3 4) := by decide

/-- Bit by bit: op 00001001, a 1000000000000001, b 0111111111111110. -/
theorem test_decode_bits :
    decode 0b0000100110000000000000010111111111111110#40 = .ok (.add 0x8001 0x7FFE) := by rfl

/-- 30_encoding R90: a bad register still decodes; the core faults later. -/
theorem test_decode_bad_register : decodeTableWord 40 0x02FFFF0000 = some (.push 0xFFFF 0) := by decide

/-- 30_encoding R85: opcodes 0x00, 0x14 and 0xFF are refused by name. -/
theorem test_decode_unassigned :
    decode 0x0000000000#40 = .error (.unassignedOpcode 0x00) ∧ decode 0x1400090000#40 = .error (.unassignedOpcode 0x14) ∧
      decode 0xFF00000000#40 = .error (.unassignedOpcode 0xFF) := ⟨rfl, rfl, rfl⟩

/-- A row's bits above nbits are 0, and a row wider than format T decodes to nothing. -/
theorem test_decode_widths :
    decodeTableWord 16 0x0100030007 = none ∧ decodeTableWord 48 0x0100030007 = none := by decide

/-- 30_encoding R84: an operand outside a field, and CONST's immediate modulo 65536 (95 M2, M3). -/
theorem test_load_triple :
    loadTriple ⟨some .push, 65543, 0⟩ = 0x02FFFF0000 ∧ loadTriple ⟨some .const, 3, -1⟩ = 0x010003FFFF ∧
      loadTriple ⟨some .const, 3, 65536⟩ = 0x0100030000 ∧ loadTriple ⟨none, 3, 7⟩ = 0x0000030007 := by decide

/-- 00_scope R3. -/
theorem test_config_name :
    Config.default.name = "htm16-R-N16" ∧
      ({ Config.default with xorInRegister := false } : Config).name = "htm16-R-N16-noxor" ∧
      ({ Config.default with dialect := .stack, n := 9, xorInRegister := false } : Config).name = "htm16-S-N9" := by
  decide

/-! ### WellFormed: an ill-formed term for each check -/

/-- The availability check (40_step_cycle R105): XOR in the register dialect with the parameter false. -/
theorem test_wellFormed_xor_unavailable :
    (Instr.xor 3 4).wellFormed { Config.default with xorInRegister := false } = false ∧
      (Instr.xor 3 4).wellFormed Config.default = true ∧
      (Instr.xor 3 4).wellFormed { Config.default with dialect := .stack, xorInRegister := false } = true := by decide

/-- The check of field a (40_step_cycle R107), at the first illegal and the last legal index. -/
theorem test_wellFormed_field_a :
    (Instr.push 8 0).wellFormed Config.default = false ∧ (Instr.push 7 0).wellFormed Config.default = true := by decide

/-- The check of field b. -/
theorem test_wellFormed_field_b :
    (Instr.load 7 8).wellFormed Config.default = false ∧ (Instr.load 7 7).wellFormed Config.default = true := by decide

/-- An unused field and an immediate are never checked (30_encoding R87; 95 F15). -/
theorem test_wellFormed_unused :
    (Instr.const 9 0xFFFF).wellFormed { Config.default with dialect := .stack } = true ∧
      (Instr.push 7 0xFFFF).wellFormed Config.default = true := by decide

/-! ### One step of each instruction (spec/95_test_vectors.md) -/

/-- 95 M1. -/
theorem test_const_register :
    regAfter 3 (exec (.const 3 7) State.reset) = some 7 ∧ regAfter 0 (exec (.const 3 7) State.reset) = some 1 := by decide

/-- 95 F15. -/
theorem test_const_stack :
    stackAfter (exec (.const 9 5) (stackMachine zeros [])) = some [5] := by decide

/-- 95 M7: the incremented PC is pushed. -/
theorem test_push_pc :
    stackAfter (exec (.push 0 0) State.reset) = some [1] ∧ (after (exec (.push 0 0) State.reset)).map State.tos = some 1 := by decide

/-- 95 M9. -/
theorem test_push_overflow :
    codeAfter (exec (.push 3 0) (bounded 2 (regMachine #v[0, 0, 0, 1, 0, 0, 0, 0] [1, 2]))) = some 6 := by decide

/-- 95 M10. -/
theorem test_pop :
    regAfter 4 (exec (.pop 4 0) (regMachine zeros [5, 9])) = some 9 ∧
      stackAfter (exec (.pop 4 0) (regMachine zeros [5, 9])) = some [5] := by decide

/-- 95 F11: RegisterOutOfRange before StackUnderflow. -/
theorem test_pop_priority :
    codeAfter (exec (.pop 9 0) (regMachine zeros [])) = some 3 ∧ codeAfter (exec (.pop 3 0) (regMachine zeros [])) = some 4 := by decide

/-- 95 M13. -/
theorem test_load :
    regAfter 5 (exec (.load 5 7) (regMachine #v[0, 1, 0, 0, 0, 0, 0, 1] [5, 7, 9])) = some 9 := by decide

/-- 95 M15: address 65536, not 0. -/
theorem test_load_no_wrap :
    codeAfter (exec (.load 5 7) (regMachine #v[0, 65535, 0, 0, 0, 0, 0, 1] [1])) = some 4 := by decide

/-- 95 M17. -/
theorem test_store :
    stackAfter (exec (.store 5 7) (regMachine #v[0, 0, 0, 0, 0, 35, 0, 1] [5, 7, 7])) = some [5, 35, 7] := by decide

/-- 95 M18a. -/
theorem test_store_pc :
    stackAfter (exec (.store 0 7) (regMachine #v[10, 0, 0, 0, 0, 0, 0, 0] [0])) = some [11] := by decide

/-- 95 M21. -/
theorem test_copy_pc :
    regAfter 3 (exec (.copy 3 0) (regMachine #v[4, 0, 0, 0, 0, 0, 0, 0] [])) = some 5 := by decide

/-- 95 M21a. -/
theorem test_copy_jump :
    regAfter 0 (exec (.copy 0 3) (regMachine #v[0, 0, 0, 7, 0, 0, 0, 0] [])) = some 7 := by decide

/-- 95 J1, J2. -/
theorem test_jumpif_register :
    regAfter 0 (exec (.jumpif 7 5) (regMachine #v[11, 0, 0, 0, 0, 0, 0, 3] [])) = some 3 ∧
      regAfter 0 (exec (.jumpif 7 5) (regMachine #v[11, 0, 0, 0, 0, 1, 0, 3] [])) = some 12 := by decide

/-- 95 J4, J5: the condition is consumed either way. -/
theorem test_jumpif_stack :
    regAfter 0 (exec (.jumpif 4 0) (stackMachine #v[0, 0, 0, 0, 20, 0, 0, 0] [0])) = some 20 ∧
      regAfter 0 (exec (.jumpif 4 0) (stackMachine #v[0, 0, 0, 0, 20, 0, 0, 0] [1])) = some 1 ∧
      stackAfter (exec (.jumpif 4 0) (stackMachine #v[0, 0, 0, 0, 20, 0, 0, 0] [1])) = some [] := by decide

/-- 95 A3. -/
theorem test_not_register :
    regAfter 3 (exec (.not 3 0) (regMachine #v[0, 0, 0, 0x00F0, 0, 0, 0, 0] [])) = some 0xFF0F := by decide

/-- 95 A40. -/
theorem test_not_stack :
    stackAfter (exec (.not 0 0) (stackMachine zeros [0x1234])) = some [0xEDCB] := by decide

/-- 95 A6. -/
theorem test_add_wraps :
    regAfter 3 (exec (.add 3 4) (regMachine #v[0, 0, 0, 0xFFFF, 0xFFFF, 0, 0, 0] [])) = some 0xFFFE := by decide

/-- 95 A38. -/
theorem test_add_stack :
    stackAfter (exec (.add 0 0) (stackMachine zeros [9, 1, 2])) = some [9, 3] := by decide

/-- 95 A10. -/
theorem test_mult_wraps :
    regAfter 3 (exec (.mult 3 4) (regMachine #v[0, 0, 0, 30000, 3, 0, 0, 0] [])) = some 24464 := by decide

/-- 95 A8. -/
theorem test_mult_low_half :
    regAfter 3 (exec (.mult 3 4) (regMachine #v[0, 0, 0, 0xFFFF, 0xFFFF, 0, 0, 0] [])) = some 1 := by decide

/-- 95 A21. -/
theorem test_and :
    regAfter 3 (exec (.and 3 4) (regMachine #v[0, 0, 0, 0x0F0F, 0x00FF, 0, 0, 0] [])) = some 0x000F := by decide

/-- 95 A22. -/
theorem test_or :
    regAfter 3 (exec (.or 3 4) (regMachine #v[0, 0, 0, 0x0F0F, 0x00FF, 0, 0, 0] [])) = some 0x0FFF := by decide

/-- 95 A23. -/
theorem test_xor :
    regAfter 3 (exec (.xor 3 4) (regMachine #v[0, 0, 0, 0x0F0F, 0x00FF, 0, 0, 0] [])) = some 0x0FF0 := by decide

/-- 95 F8, F9: the parameter acts in the register dialect only. -/
theorem test_xor_unavailable :
    codeAfter (exec (.xor 3 4) (noXor (regMachine #v[0, 0, 0, 1, 3, 0, 0, 0] []))) = some 2 ∧
      stackAfter (exec (.xor 0 0) (noXor (stackMachine zeros [1, 3]))) = some [2] := by decide

/-- 95 A36. -/
theorem test_lshift_order :
    stackAfter (exec (.lshift 0 0) (stackMachine zeros [1, 4])) = some [16] := by decide

/-- 95 A13. -/
theorem test_lshift_sixteen :
    regAfter 3 (exec (.lshift 3 4) (regMachine #v[0, 0, 0, 1, 16, 0, 0, 0] [])) = some 0 := by decide

/-- 95 A37. -/
theorem test_rshift_order :
    stackAfter (exec (.rshift 0 0) (stackMachine zeros [16, 4])) = some [1] := by decide

/-- 95 A19. -/
theorem test_rshift_logical :
    regAfter 3 (exec (.rshift 3 4) (regMachine #v[0, 0, 0, 0xFFFF, 1, 0, 0, 0] [])) = some 0x7FFF := by decide

/-- 95 A25. -/
theorem test_equals_differ :
    regAfter 3 (exec (.equals 3 4) (regMachine #v[0, 0, 0, 0, 0xFFFF, 0, 0, 0] [])) = some 0 := by decide

/-- 95 A31. -/
theorem test_equals_same :
    regAfter 3 (exec (.equals 3 3) (regMachine #v[0, 0, 0, 7, 0, 0, 0, 0] [])) = some 1 := by decide

/-- 95 A34. -/
theorem test_lessthan_order :
    stackAfter (exec (.lessthan 0 0) (stackMachine zeros [3, 5])) = some [1] := by decide

/-- 95 A26. -/
theorem test_lessthan_unsigned :
    regAfter 3 (exec (.lessthan 3 4) (regMachine #v[0, 0, 0, 0x8000, 0x7FFF, 0, 0, 0] [])) = some 0 := by decide

/-- 95 G1, G3. -/
theorem test_input_register :
    regAfter 2 (exec (.input 3 4) (withGrid (regMachine #v[0, 0, 0, 2, 3, 0, 0, 0] []))) = some 99 ∧
      regAfter 2 (exec (.input 3 4) (withGrid (regMachine #v[0, 0, 0, 15, 15, 0, 0, 0] []))) = some 7 := by decide

/-- 95 G5, G7. -/
theorem test_input_stack :
    regAfter 2 (exec (.input 0 0) (withGrid (stackMachine zeros [2, 3]))) = some 99 ∧
      codeAfter (exec (.input 0 0) (withGrid (stackMachine zeros [16, 0]))) = some 5 ∧
      stackAfter (exec (.input 0 0) (withGrid (stackMachine zeros [16, 0]))) = some [16, 0] := by decide

/-- 95 G8, G11: row y, column x. -/
theorem test_output_register :
    cellAfter 2 3 (exec (.output 3 4) (regMachine #v[0, 0, 42, 2, 3, 0, 0, 0] [])) = some 42 ∧
      cellAfter 3 2 (exec (.output 3 4) (regMachine #v[0, 0, 42, 2, 3, 0, 0, 0] [])) = some 0 ∧
      cellAfter 5 1 (exec (.output 2 4) (regMachine #v[0, 0, 5, 0, 1, 0, 0, 0] [])) = some 5 := by decide

/-- 95 G10, F12. -/
theorem test_output_stack :
    cellAfter 5 6 (exec (.output 0 0) (stackMachine #v[0, 0, 7, 0, 0, 0, 0, 0] [5, 6])) = some 7 ∧
      codeAfter (exec (.output 0 0) (stackMachine zeros [20])) = some 4 := by decide

/-! ### The step cycle, reset and the host interface -/

/-- 95 F1, F4. -/
theorem test_step_halted :
    codeAfter (step State.reset) = some 1 ∧
      codeAfter (step (withProgram [0x0100030001] (regMachine #v[1, 0, 0, 0, 0, 0, 0, 0] []))) = some 1 ∧
      regAfter 0 (step (withProgram [0x0100030001] (regMachine #v[1, 0, 0, 0, 0, 0, 0, 0] []))) = some 1 := by decide

/-- 95 F2, F5. -/
theorem test_step_injected :
    regAfter 0 (stepWith 0x0100000000 (withProgram [0x0100030001] (regMachine #v[1, 0, 0, 0, 0, 0, 0, 0] []))) = some 0 ∧
      regAfter 0 (stepWith 0x0600030003 (regMachine #v[65535, 0, 0, 0, 0, 0, 0, 0] [])) = some 0 := by decide

/-- 95 F6, F10. -/
theorem test_step_unrecognized :
    codeAfter (step (withProgram [0x0000000000] State.reset)) = some 2 ∧
      codeAfter (step (withProgram [0x1400090000] State.reset)) = some 2 := by decide

/-- 95 P4, the faulting LOAD: the increment is discarded. -/
theorem test_fault_precise :
    regAfter 0 (exec (.load 5 3) (regMachine #v[2, 0, 0, 2, 0, 0, 0, 0] [])) = some 2 := by decide

/-- 95 F13. -/
theorem test_fault_final :
    after (step { State.reset with faulted := true, faultCode := 4 }) = some { State.reset with faulted := true, faultCode := 4 } := by decide

/-- The placement runs the row's word next. -/
theorem test_placed_word :
    regAfter 3 (step (State.reset.withFetchWord 40 0x0100030007)) = some 7 := by decide

/-- 60_exceptions R220: StepWith runs the given instruction, not Prog[0]. -/
theorem test_stepWith_transaction :
    (transact (.stepWith (.triple ⟨some .const, 3, -1⟩)) (withProgram [0x0100040007] State.reset)).1 = .ok ∧
      (transact (.stepWith (.triple ⟨some .const, 3, -1⟩)) (withProgram [0x0100040007] State.reset)).2.reg 3 = 65535 ∧
      (transact (.stepWith (.word 0x0200090000)) State.reset).1 = .fault 3 := by decide

/-- 70_reset_and_hazards R242: what the loader refuses, at the edges. -/
theorem test_construct_refuses :
    construct { dialect := .stack, n := 0, program := [], gridIn := [] } = none ∧
      construct { dialect := .stack, n := 1, program := [], gridIn := [[65536]] } = none ∧
      construct { dialect := .stack, n := 1, program := [], gridIn := [[0, 0]] } = none := by decide

/-- A construction on a 2 × 2 grid: the program's words, and rows by y. -/
def smallArgs : ConstructArgs :=
  { dialect := .stack, n := 2, stackCapacity := some 3, program := [.word 0x0100030007, .triple ⟨some .push, 3, 0⟩],
    gridIn := [[0, 65535], [1, 2]] }

/-- The state it leaves. -/
def smallState : State :=
  { State.initial smallArgs.config [0x0100030007, 0x0200030000] [(1, 65535), (65536, 1), (65537, 2)] with supplied := none }

theorem test_construct_small : construct smallArgs = some smallState := by decide

/-- The reads of 60_exceptions R220 on it, in and out of range. -/
theorem test_host_reads :
    transact (.readReg 0) smallState = (.value 0, smallState) ∧ transact (.readStack 0) smallState = (.hostError, smallState) ∧
      transact (.readGridOut 1 1) smallState = (.value 0, smallState) ∧
      transact (.readGridOut 2 0) smallState = (.hostError, smallState) ∧
      transact (.readHost 0) smallState = (.value 6, smallState) := by decide

/-! ### Witnesses: a state and operands that meet the hypotheses of each obligation -/

/-- A small register machine that meets the invariant. -/
def soundState : State := withProgram [0x0100030007] (withGrid (regMachine #v[0, 1, 42, 2, 15, 16, 3, 1] [5, 7, 9]))

/-- The same in the stack dialect, with coordinates on the stack. -/
def soundStack (x y : Word) : State :=
  withProgram [0x0100030007] (withGrid (stackMachine #v[0, 1, 42, 2, 15, 16, 3, 1] [5, x, y]))

theorem test_inv_soundState : soundState.Inv :=
  ⟨by decide, by decide, nofun, by decide, by decide, by decide, by decide, by decide, by unfold State.recordLegal; decide⟩

theorem test_inv_soundStack (x y : Word) : (soundStack x y).Inv :=
  ⟨test_inv_soundState.side, test_inv_soundState.length, nofun, rfl, test_inv_soundState.gridOut_wf,
    test_inv_soundState.gridOut_in, test_inv_soundState.gridIn_wf, test_inv_soundState.gridIn_in,
    test_inv_soundState.record⟩

theorem test_inv_reset : State.reset.Inv :=
  ⟨by decide, by decide, nofun, by decide, by decide, by decide, by decide, by decide, by unfold State.recordLegal; decide⟩

/-- A bounded stack machine, full with two elements. -/
def fullStack : State := bounded 2 (stackMachine zeros [1, 2])

theorem test_StackSound_full : StackSound fullStack :=
  ⟨rfl, fun c h => by injection h with h; subst h; decide⟩

theorem test_ConstLoadsItsImmediate_witness :
    ((stackMachine zeros [1]).config.dialect = .stack ∧
      (stackMachine zeros [1]).config.stackCapacity ≠ some (stackMachine zeros [1]).stack.length) ∧
    (fullStack.config.dialect = .stack ∧ fullStack.config.stackCapacity = some fullStack.stack.length) ∧
    State.reset.config.dialect = .register ∧ (7 : Field).toNat < 8 ∧ 8 ≤ (8 : Field).toNat := by decide

theorem test_PushAppendsRegister_witness :
    (State.reset.config.stackCapacity ≠ some State.reset.stack.length ∧ (7 : Field).toNat < 8) ∧
    fullStack.config.stackCapacity = some fullStack.stack.length ∧ 8 ≤ (8 : Field).toNat ∧
    ∃ t, (7 : Field) ≠ 0 ∧ (1 : Field) ≠ 0 ∧ exec (.push 7 0) State.reset = .next t :=
  ⟨by decide, by decide, by decide, _, by decide, by decide, rfl⟩

theorem test_PopMovesTopToRegister_witness :
    (soundState.tos = soundState.stack.length ∧ soundState.stack = [5, 7] ++ [9] ∧ (7 : Field).toNat < 8) ∧
    (State.reset.tos = State.reset.stack.length ∧ State.reset.stack = []) ∧ 8 ≤ (8 : Field).toNat := by decide

/-- The last legal address 2 (`x[1] + x[7]`) and the first illegal one 3 (`x[1] + x[3]`) of a stack of 3. -/
theorem test_LoadReadsBaseRelative_witness :
    (2 = (incremented soundState)[1].toNat + (incremented soundState)[(7 : Field).toNat].toNat ∧ 2 < soundState.stack.length) ∧
    (3 = (incremented soundState)[1].toNat + (incremented soundState)[(3 : Field).toNat].toNat ∧ soundState.stack.length ≤ 3) ∧
    8 ≤ (8 : Field).toNat := by decide

/-- The same addresses for STORE, and the incremented PC as the offset. -/
theorem test_StoreWritesBaseRelative_witness :
    (2 = (incremented soundState)[1].toNat + (incremented soundState)[(0 : Field).toNat].toNat ∧ 2 < soundState.stack.length) ∧
    (3 = (incremented soundState)[1].toNat + (incremented soundState)[(3 : Field).toNat].toNat ∧ soundState.stack.length ≤ 3) ∧
    8 ≤ (8 : Field).toNat := by decide

theorem test_CopyMovesRegister_witness :
    ((7 : Field).toNat < 8 ∧ (0 : Field).toNat < 8) ∧ 8 ≤ (8 : Field).toNat := by decide

theorem test_JumpifJumpsOnZero_witness :
    ((stackMachine zeros [4, 0]).config.dialect = .stack ∧
      (stackMachine zeros [4, 0]).tos = (stackMachine zeros [4, 0]).stack.length ∧
      (stackMachine zeros [4, 0]).stack = [4] ++ [0]) ∧
    ((1 : Word) ≠ 0 ∧ (stackMachine zeros [4, 1]).stack = [4] ++ [1]) ∧ (stackMachine zeros []).stack = [] ∧
    (State.reset.config.dialect = .register ∧ (incremented State.reset)[(7 : Field).toNat] = 0 ∧
      (incremented State.reset)[(0 : Field).toNat] ≠ 0) ∧ 8 ≤ (8 : Field).toNat := by decide

theorem test_NotComplements_witness :
    (fullStack.config.dialect = .stack ∧ fullStack.stack = [1] ++ [2]) ∧ StackSound fullStack ∧
    ((stackMachine zeros []).config.dialect = .stack ∧ (stackMachine zeros []).stack = [] ∧
      StackSound (stackMachine zeros [])) ∧ State.reset.config.dialect = .register :=
  ⟨by decide, test_StackSound_full, ⟨rfl, rfl, rfl, nofun⟩, rfl⟩

/-- The hypotheses of BinaryRule, for the nine binary operators; `noXor` is the configuration in which XOR's
availability is false. -/
theorem test_BinaryRule_witness :
    (fullStack.config.dialect = .stack ∧ fullStack.stack = [] ++ [1, 2]) ∧ StackSound fullStack ∧
    ((stackMachine zeros [7]).config.dialect = .stack ∧ (stackMachine zeros [7]).stack.length < 2 ∧
      StackSound (stackMachine zeros [7])) ∧
    (State.reset.config.dialect = .register ∧ State.reset.config.xorInRegister = true ∧ (7 : Field).toNat < 8 ∧
      8 ≤ (8 : Field).toNat) ∧
    ((noXor State.reset).config.dialect = .register ∧ (noXor State.reset).config.xorInRegister = false) :=
  ⟨by decide, test_StackSound_full, ⟨rfl, by decide, rfl, nofun⟩, by decide, by decide⟩

/-- The last coordinate 15 and the first illegal one 16, in both dialects. -/
theorem test_InputReadsGridCell_witness :
    ((soundStack 15 15).config.dialect = .stack ∧ (soundStack 15 15).tos = (soundStack 15 15).stack.length ∧
      (soundStack 15 15).stack = [5] ++ [15, 15] ∧ (15 : Word).toNat < (soundStack 15 15).config.n) ∧
    ((soundStack 15 16).stack = [5] ++ [15, 16] ∧ (soundStack 15 16).config.n ≤ (16 : Word).toNat) ∧
    (stackMachine zeros [3]).stack.length < 2 ∧
    (soundState.config.dialect = .register ∧ (incremented soundState)[(4 : Field).toNat].toNat < soundState.config.n ∧
      soundState.config.n ≤ (incremented soundState)[(5 : Field).toNat].toNat) ∧ 8 ≤ (8 : Field).toNat := by decide

theorem test_OutputWritesOneGridCell_witness :
    ((soundStack 15 15).config.dialect = .stack ∧ (soundStack 15 15).tos = (soundStack 15 15).stack.length ∧
      (soundStack 15 15).stack = [5] ++ [15, 15] ∧ (15 : Word).toNat < (soundStack 15 15).config.n) ∧
    (soundStack 15 15).Inv ∧ ((soundStack 16 15).Inv ∧ (soundStack 16 15).config.n ≤ (16 : Word).toNat) ∧
    (stackMachine zeros [3]).Inv ∧
    (soundState.config.dialect = .register ∧ (incremented soundState)[(4 : Field).toNat].toNat < soundState.config.n ∧
      soundState.config.n ≤ (incremented soundState)[(5 : Field).toNat].toNat) ∧ soundState.Inv :=
  ⟨by decide, test_inv_soundStack _ _, ⟨test_inv_soundStack _ _, by decide⟩,
    ⟨by decide, by decide, nofun, by decide, by decide, by decide, by decide, by decide, by unfold State.recordLegal; decide⟩,
    by decide, test_inv_soundState⟩

theorem test_DecodeInvertsEncode_witness : decode 0x13FFFF8000#40 = .ok (.output 0xFFFF 0x8000) := by rfl

theorem test_WorkedEncodingsDecode_witness : ((⟨some .push, -1, 0⟩ : Triple), 0x02FFFF0000) ∈ workedEncodings := by decide

theorem test_LoaderKeepsTripleMeaning_witness :
    ((0 : Int) ≤ 7 ∧ (7 : Int) ≤ 7) ∧ Opcode.copy ≠ Opcode.const ∧ ¬((0 : Int) ≤ 8 ∧ (8 : Int) ≤ 7) := by decide

theorem test_StepRunsDecodedInstruction_witness :
    soundState.faulted = false ∧ soundState.supplied = none ∧ soundState.regs[0].toNat < soundState.prog.length ∧
    decode 0x0100030007#40 = .ok (.const 3 7) ∧ soundState.prog[0]? = some 0x0100030007 ∧
    ({ soundState with supplied := some 0x0100030007 } : State).supplied = some 0x0100030007 :=
  ⟨rfl, rfl, by decide, rfl, rfl, rfl⟩

/-- Halted at PC = L = 1, with a next state of the injected CONST; and a faulted core. -/
theorem test_InjectedInstructionRuns_witness :
    (regMachine #v[1, 0, 0, 0, 0, 0, 0, 0] []).faulted = false ∧ (regMachine #v[1, 0, 0, 0, 0, 0, 0, 0] []).faultCode = 0 ∧
    (regMachine #v[1, 0, 0, 0, 0, 0, 0, 0] []).supplied = none ∧ decode 0x0100000000#40 = .ok (.const 0 0) ∧
    (∃ t, stepWith 0x0100000000 (regMachine #v[1, 0, 0, 0, 0, 0, 0, 0] []) = .next t) ∧
    ((recorded State.reset 4).supplied = none ∧ (recorded State.reset 4).faulted = true) :=
  ⟨rfl, rfl, rfl, rfl, ⟨_, rfl⟩, rfl, rfl⟩

/-- PC = L, and PC = L - 1 with its next state. -/
theorem test_HaltedStepRaisesHaltedMachine_witness :
    (State.reset.faulted = false ∧ State.reset.supplied = none ∧ State.reset.prog.length ≤ State.reset.regs[0].toNat) ∧
    (soundState.faulted = false ∧ soundState.supplied = none ∧ soundState.faultCode = 0 ∧
      soundState.regs[0].toNat < soundState.prog.length) ∧ ∃ t, step soundState = .next t :=
  ⟨by decide, by decide, _, rfl⟩

/-- The first opcode past the last legal one, XOR where it is unavailable, and the last legal opcode. -/
theorem test_UnrecognizedWordsFault_witness :
    (nextWord (withProgram [0x1400000000] State.reset) = .ok 0x1400000000 ∧ illegalOp State.reset.config 0x1400000000) ∧
    illegalOp (noXor State.reset).config 0x0D00030004 ∧
    (nextWord (withProgram [0x1300000000] State.reset) = .ok 0x1300000000 ∧ ¬illegalOp State.reset.config 0x1300000000) ∧
    ∃ t, step (withProgram [0x1300000000] State.reset) = .next t :=
  ⟨⟨rfl, by unfold illegalOp; decide⟩, by unfold illegalOp; decide, ⟨rfl, by unfold illegalOp; decide⟩, _, rfl⟩

theorem test_RegisterFieldsAreChecked_witness :
    (¬illegalOp State.reset.config (encode (.load 7 8)) ∧
      ∃ f ∈ registerFields State.reset.config.dialect (.load 7 8), 7 < f.toNat) ∧
    (¬illegalOp State.reset.config (encode (.copy 7 7)) ∧
      (∀ f ∈ registerFields State.reset.config.dialect (.copy 7 7), f.toNat ≤ 7) ∧ State.reset.faultCode = 0 ∧
      ∃ t, exec (.copy 7 7) State.reset = .next t) :=
  ⟨⟨by unfold illegalOp; decide, 8, by decide, by decide⟩, by unfold illegalOp; decide,
    by simp [registerFields], rfl, _, rfl⟩

theorem test_UnusedFieldsAreIgnored_witness :
    (Instr.const 9 5).opcode = (Instr.const 0 5).opcode ∧ Instr.const 9 5 ≠ Instr.const 0 5 ∧
    usedFields fullStack.config.dialect (.const 9 5) = usedFields fullStack.config.dialect (.const 0 5) := by decide

theorem test_StepIsTotal_witness : State.reset.faulted = false ∧ State.reset.faultCode = 0 := by decide

/-- The wrap of the PC from 65535 (95 F5). -/
theorem test_PcAdvancesUnlessWritten_witness :
    ∃ t, exec (.copy 3 3) (regMachine #v[65535, 0, 0, 0, 0, 0, 0, 0] []) = .next t ∧ t.faulted = false ∧
      0#16 ∉ destinations .register (.copy 3 3) ∧ (Instr.copy 3 3).opcode ≠ .jumpif :=
  ⟨_, rfl, rfl, by decide, by decide⟩

theorem test_OnlyDestinationRegistersChange_witness :
    ∃ t, exec (.input 3 4) soundState = .next t ∧ (7 : Fin 8) ≠ 0 ∧
      BitVec.ofNat 16 (7 : Fin 8).val ∉ destinations soundState.config.dialect (.input 3 4) ∧ (7 : Fin 8) ≠ 2 :=
  ⟨_, rfl, by decide, by decide, by decide⟩

theorem test_step_next_witness : ∃ t, step soundState = .next t ∧ t.faulted = false := ⟨_, rfl, rfl⟩

/-- The coordinates 2, 15 of a written cell, an empty stack without coordinates, and a coordinate of 16 that faults. -/
theorem test_OnlyOutputWritesOutputGrid_witness :
    ((Instr.copy 3 3).opcode ≠ .output ∧ ∃ t, exec (.copy 3 3) soundState = .next t) ∧
    (operandPair 3 4 soundState.advancePc = .ok (2, 15, soundState.advancePc) ∧ 0 ≠ gridKey 2 15 ∧
      ∃ t, exec (.output 3 4) soundState = .next t ∧ t.gridOutAt 2 15 = 42) ∧
    (operandPair 0 0 (stackMachine zeros []).advancePc = .error .stackUnderflow ∧
      ∃ t, exec (.output 0 0) (stackMachine zeros []) = .next t) ∧
    soundState.faulted = false ∧ exec (.output 3 5) soundState = .next (recorded soundState 5) :=
  ⟨⟨by decide, _, rfl⟩, ⟨rfl, by decide, _, rfl, by decide⟩, ⟨rfl, _, rfl⟩, rfl, rfl⟩

theorem test_FaultsArePrecise_witness :
    State.reset.faulted = false ∧ ∃ t, step State.reset = .next t ∧ t.faulted = true := ⟨rfl, _, rfl, rfl⟩

theorem test_FaultsAreFinal_witness :
    (recorded State.reset 4).faulted = true ∧ (recorded State.reset 4).supplied = none ∧
    ∀ args, Request.readReg 0 ≠ .construct args := ⟨rfl, rfl, nofun⟩

/-- A fault of each kind the table lists: StackOverflow, UnrecognizedInstruction and GridOutOfBounds. -/
theorem test_FaultsOfEachInstruction_witness :
    StackSound fullStack ∧ exec (.const 0 5) fullStack = .next (recorded fullStack 6) ∧
    StackSound (noXor State.reset) ∧ exec (.xor 3 4) (noXor State.reset) = .next (recorded (noXor State.reset) 2) ∧
    StackSound soundState ∧ exec (.input 3 5) soundState = .next (recorded soundState 5) :=
  ⟨test_StackSound_full, rfl, ⟨rfl, nofun⟩, rfl, ⟨rfl, nofun⟩, rfl⟩

theorem test_ConstructGivesResetValues_witness :
    construct smallArgs = some smallState ∧ smallArgs.gridIn[1]? = some [1, 2] ∧ [1, (2 : Int)][1]? = some 2 :=
  ⟨test_construct_small, rfl, rfl⟩

/-- L = 2 and L = 0. -/
theorem test_EntryPointIsZero_witness :
    (construct smallArgs = some smallState ∧ 0 < smallArgs.program.length) ∧
    ∃ s, construct { smallArgs with program := [] } = some s := ⟨⟨test_construct_small, by decide⟩, _, rfl⟩

theorem test_StepKeepsInvariant_witness : soundState.Inv ∧ ∃ t, step soundState = .next t :=
  ⟨test_inv_soundState, _, rfl⟩

theorem test_ReachableStatesMeetInvariant_witness : Reachable smallState := .construct smallArgs smallState test_construct_small

/-- A bounded machine too, for CFG_STACK_CAPACITY. -/
theorem test_HostRegistersShowTheirFields_witness :
    soundState.Inv ∧ smallState.config.stackCapacity = some 3 ∧ construct smallArgs = some smallState :=
  ⟨test_inv_soundState, rfl, test_construct_small⟩

/-- The last element and the first index past it, the last cell and the first coordinate past it. -/
theorem test_HostReadsChangeNothing_witness :
    2 < soundState.stack.length ∧ soundState.stack.length ≤ 3 ∧ 15 < soundState.config.n ∧ soundState.config.n ≤ 16 := by
  decide

/-- Completed, faulted and refused, for Step and for StepWith. -/
theorem test_StepRepliesTellTheOutcome_witness :
    (∃ t, step soundState = .next t ∧ soundState.faulted = false ∧ t.faulted = false) ∧
    (∃ t, step State.reset = .next t ∧ State.reset.faulted = false ∧ t.faulted = true) ∧
    (∃ t, step (recorded State.reset 4) = .next t ∧ (recorded State.reset 4).faulted = true) ∧
    (∃ t, stepWith (ProgramItem.word 0x0100030007).toWord State.reset = .next t ∧ t.faulted = false) ∧
    (∃ t, stepWith (ProgramItem.triple ⟨some .push, 9, 0⟩).toWord State.reset = .next t ∧ t.faulted = true) ∧
    ∃ t, stepWith (ProgramItem.word 0x0100030007).toWord (recorded State.reset 4) = .next t :=
  ⟨⟨_, rfl, rfl, rfl⟩, ⟨_, rfl, rfl, rfl⟩, ⟨_, rfl, rfl⟩, ⟨_, rfl, rfl⟩, ⟨_, rfl, rfl⟩, _, rfl⟩

/-- Accepted data, and an N of 0. -/
theorem test_ConstructRepliesTellTheOutcome_witness :
    construct smallArgs = some smallState ∧ construct { smallArgs with n := 0 } = none :=
  ⟨test_construct_small, by decide⟩

theorem test_RunEndsAreDistinct_witness :
    State.reset.runEnd = some .halted ∧ (recorded State.reset 4).runEnd = some .faulted ∧ soundState.runEnd = none ∧
    ∃ t, Sys2Proof.core.run 1 soundState = .next t ∧ t.runEnd ≠ none := ⟨rfl, rfl, rfl, _, rfl, by decide⟩

theorem test_InjectionRevivesHaltedCore_witness :
    (withProgram [0] (regMachine #v[1, 0, 0, 0, 0, 0, 0, 0] [])).halted = true ∧
    (withProgram [0] (regMachine #v[1, 0, 0, 0, 0, 0, 0, 0] [])).supplied = none ∧
    (withProgram [0] (regMachine #v[1, 0, 0, 0, 0, 0, 0, 0] [])).config.dialect = .register ∧ (0 : Word).toNat < 1 := by
  decide

theorem test_PlacedWordRunsNext_witness : decodeTableWord 40 0x1300030004 = some (.output 3 4) := by decide

end Sys2Proof.Tests
end

