-- ==== Sys2Proof/Proofs/Scope.lean ====
section
/-! PROOF. What every step keeps (00_scope R9, R10): a predicate on states that each state operation keeps is kept by
every instruction's effect and by every step. The parameters and the invariant are two such predicates. -/

namespace Sys2Proof.Machine

/-! ### What a completed operation leaves -/

/-- A sequence of two operations completes only through a completed first one. -/
theorem bind_eq_ok {α β : Type} {x : Except FaultKind α} {f : α → Except FaultKind β} {r : β}
    (h : (x >>= f) = .ok r) : ∃ v, x = .ok v ∧ f v = .ok r := by
  cases x with
  | error k => nomatch h
  | ok v => exact ⟨v, rfl, h⟩

/-- A completed pop left the stack without its newest element. -/
theorem State.of_pop_eq_ok {t u : State} {v : Word} (h : t.pop = .ok (v, u)) :
    ∃ base, t.stack = base ++ [v] ∧ u = { t with stack := base, tos := t.tos - 1 } := by
  rcases t.pop_cases with ⟨_, hp⟩ | ⟨base, w, hs, hp⟩ <;> rw [hp] at h <;> cases h
  exact ⟨base, hs, rfl⟩

/-- A completed push found room and appended the value. -/
theorem State.of_push_eq_ok {t u : State} {v : Word} (h : t.push v = .ok u) :
    t.config.stackCapacity ≠ some t.stack.length ∧ u = { t with stack := t.stack ++ [v], tos := t.tos + 1 } := by
  rcases t.push_cases v with ⟨_, hp⟩ | ⟨hroom, hp⟩ <;> rw [hp] at h <;> cases h
  exact ⟨hroom, rfl⟩

/-- A completed indexed write replaced one element. -/
theorem State.of_memWrite_eq_ok {t u : State} {addr : Nat} {v : Word} (h : t.memWrite addr v = .ok u) :
    u = { t with stack := t.stack.set addr v } := by
  rcases t.memWrite_cases addr v with ⟨_, hp⟩ | ⟨_, hp⟩ <;> rw [hp] at h <;> cases h
  rfl

/-- A completed grid write had its coordinates inside N × N and wrote one cell. -/
theorem State.of_gridWrite_eq_ok {t u : State} {x y v : Word} (h : t.gridWrite x y v = .ok u) :
    (x.toNat < t.config.n ∧ y.toNat < t.config.n) ∧
      u = { t with gridOut := Memory.write t.gridOut (gridKey x.toNat y.toNat) v } := by
  rcases t.gridWrite_cases x y v with ⟨_, hp⟩ | ⟨hin, hp⟩ <;> rw [hp] at h <;> cases h
  exact ⟨hin, rfl⟩

/-! ### Predicates that every operation keeps -/

/-- `P` is kept by each operation an instruction's effect is made of: the writes of 10_state R21, 20_memory R53 to R57
and R59. -/
structure KeptByOps (P : State → Prop) : Prop where
  setReg : ∀ {t} (r : Fin 8) (v : Word), P t → P (t.setReg r v)
  push : ∀ {t u} {v : Word}, P t → t.push v = .ok u → P u
  pop : ∀ {t u} {v : Word}, P t → t.pop = .ok (v, u) → P u
  memWrite : ∀ {t u} {addr : Nat} {v : Word}, P t → t.memWrite addr v = .ok u → P u
  gridWrite : ∀ {t u} {x y v : Word}, P t → t.gridWrite x y v = .ok u → P u

namespace KeptByOps

variable {P : State → Prop}

theorem advancePc (hP : KeptByOps P) {t : State} (ht : P t) : P t.advancePc := hP.setReg 0 _ ht

theorem operand (hP : KeptByOps P) {f : Field} {t u : State} {v : Word} (ht : P t)
    (h : operand f t = .ok (v, u)) : P u := by
  cases hd : t.config.dialect with
  | stack => rw [operand_stack hd] at h; exact hP.pop ht h
  | register => rw [operand_register hd] at h; cases h; exact ht

theorem operandPair (hP : KeptByOps P) {a b : Field} {t u : State} {v w : Word} (ht : P t)
    (h : operandPair a b t = .ok (v, w, u)) : P u := by
  cases hd : t.config.dialect with
  | stack =>
    rw [Machine.operandPair, hd] at h
    obtain ⟨⟨second, t₁⟩, h₁, h⟩ := bind_eq_ok h
    obtain ⟨⟨first, t₂⟩, h₂, h⟩ := bind_eq_ok h
    cases h
    exact hP.pop (hP.pop ht h₁) h₂
  | register => rw [operandPair_register hd] at h; cases h; exact ht

theorem deliver (hP : KeptByOps P) {a : Field} {v : Word} {t u : State} (ht : P t)
    (h : deliver a v t = .ok u) : P u := by
  cases hd : t.config.dialect with
  | stack => rw [deliver_stack hd] at h; exact hP.push ht h
  | register => rw [deliver_register hd] at h; cases h; exact hP.setReg _ _ ht

theorem binaryEffect (hP : KeptByOps P) {f : Word → Word → Word} {a b : Field} {t u : State} (ht : P t)
    (h : binaryEffect f a b t = .ok u) : P u := by
  obtain ⟨⟨lhs, rhs, t₁⟩, h₁, h⟩ := bind_eq_ok h
  exact hP.deliver (hP.operandPair ht h₁) h

/-- What the operations keep, every instruction's completed effect keeps. -/
theorem effectOf (hP : KeptByOps P) {i : Instr} {t u : State} (ht : P t) (h : effectOf i t = .ok u) : P u := by
  cases i with
  | const a b => exact hP.deliver ht h
  | push a b => exact hP.push ht h
  | pop a b =>
    obtain ⟨⟨v, t₁⟩, h₁, h⟩ := bind_eq_ok h
    cases h
    exact hP.setReg _ _ (hP.pop ht h₁)
  | load a b =>
    obtain ⟨v, _, h⟩ := bind_eq_ok h
    cases h
    exact hP.setReg _ _ ht
  | store a b => exact hP.memWrite ht h
  | copy a b => cases h; exact hP.setReg _ _ ht
  | jumpif a b =>
    obtain ⟨⟨c, t₁⟩, h₁, h⟩ := bind_eq_ok h
    have ht₁ : P t₁ := hP.operand ht h₁
    cases h
    split
    · exact hP.setReg _ _ ht₁
    · exact ht₁
  | not a b =>
    obtain ⟨⟨v, t₁⟩, h₁, h⟩ := bind_eq_ok h
    exact hP.deliver (hP.operand ht h₁) h
  | add a b | mult a b | and a b | or a b | xor a b | lshift a b | rshift a b | equals a b | lessthan a b =>
    exact hP.binaryEffect ht h
  | input a b =>
    obtain ⟨⟨xc, y, t₁⟩, h₁, h⟩ := bind_eq_ok h
    obtain ⟨v, _, h⟩ := bind_eq_ok h
    cases h
    exact hP.setReg _ _ (hP.operandPair ht h₁)
  | output a b =>
    obtain ⟨⟨xc, y, t₁⟩, h₁, h⟩ := bind_eq_ok h
    exact hP.gridWrite (hP.operandPair ht h₁) h

/-- An instruction keeps what the operations and fault entry keep. -/
theorem exec (hP : KeptByOps P) (hfault : ∀ {t} (k : FaultKind), P t → P (t.takeFault k)) {i : Instr} {s t : State}
    (hs : P s) (h : exec i s = .next t) : P t := by
  rw [exec_eq_perform] at h
  rcases perform_cases i (Machine.effectOf i) s with ⟨k, hk⟩ | ⟨_, u, hu, hk⟩ <;> rw [hk] at h <;> cases h
  · exact hfault k hs
  · exact hP.effectOf (hP.advancePc hs) hu

/-- A step keeps what the operations, fault entry and the consumption of the supplied instruction keep. -/
theorem step (hP : KeptByOps P) (hfault : ∀ {t} (k : FaultKind), P t → P (t.takeFault k))
    (hrequest : ∀ {t}, P t → P t.takeRequest) {s t : State} (hs : P s) (h : step s = .next t) : P t := by
  rcases step_cases s with ⟨_, hk⟩ | ⟨_, k, _, hk⟩ | ⟨_, i, _, hk⟩ <;> rw [hk] at h
  · cases h; exact hrequest hs
  · cases h; exact hfault k (hrequest hs)
  · exact hP.exec hfault (hrequest hs) h

end KeptByOps

/-! ### The parameters (00_scope R10) -/

/-- `t` has the program store, the input grid and the configuration of `s`. -/
def State.SameParameters (s t : State) : Prop := t.prog = s.prog ∧ t.gridIn = s.gridIn ∧ t.config = s.config

/-- Every operation writes other fields than the parameters. -/
theorem State.sameParameters_keptByOps (s : State) : KeptByOps s.SameParameters where
  setReg _ _ ht := ht
  push ht h := by obtain ⟨_, rfl⟩ := State.of_push_eq_ok h; exact ht
  pop ht h := by obtain ⟨_, _, rfl⟩ := State.of_pop_eq_ok h; exact ht
  memWrite ht h := by cases State.of_memWrite_eq_ok h; exact ht
  gridWrite ht h := by obtain ⟨_, rfl⟩ := State.of_gridWrite_eq_ok h; exact ht

/-! ### The invariant -/

namespace State.Inv

variable {t u : State} {v : Word}

theorem setReg (ht : t.Inv) (r : Fin 8) (v : Word) : (t.setReg r v).Inv := { ht with }

theorem takeRequest (ht : t.Inv) : t.takeRequest.Inv := { ht with }

/-- A push below the capacity leaves at most the capacity (20_memory R57), and `tos` counts it. -/
theorem push (ht : t.Inv) (h : t.push v = .ok u) : u.Inv := by
  obtain ⟨hroom, rfl⟩ := State.of_push_eq_ok h
  refine { ht with capacity := fun c hc => ?_, counter := ?_ }
  · have hle : t.stack.length ≤ c := ht.capacity c hc
    have hne : t.stack.length ≠ c := fun heq => hroom (heq ▸ hc)
    simp only [List.length_append, List.length_singleton]
    omega
  · simp [ht.counter]

theorem pop (ht : t.Inv) (h : t.pop = .ok (v, u)) : u.Inv := by
  obtain ⟨base, hs, rfl⟩ := State.of_pop_eq_ok h
  have hlen : t.stack.length = base.length + 1 := by simp [hs]
  refine { ht with capacity := fun c hc => ?_, counter := ?_ }
  · have hle : t.stack.length ≤ c := ht.capacity c hc
    change base.length ≤ c
    omega
  · simp [ht.counter, hlen]

theorem memWrite {addr : Nat} (ht : t.Inv) (h : t.memWrite addr v = .ok u) : u.Inv := by
  cases State.of_memWrite_eq_ok h
  exact { ht with
    capacity := by simpa using ht.capacity
    counter := by simpa using ht.counter }

/-- A grid write is inside N × N, and keeps the canonical form (20_memory R59). -/
theorem gridWrite {x y : Word} (ht : t.Inv) (h : t.gridWrite x y v = .ok u) : u.Inv := by
  obtain ⟨⟨hx, hy⟩, rfl⟩ := State.of_gridWrite_eq_ok h
  exact { ht with
    gridOut_wf := Memory.write_wf ht.gridOut_wf _ _
    gridOut_in := Memory.write_inGrid ht.gridOut_in hx hy x.isLt _ }

/-- Fault entry writes a legal record: every code is one of 1 to 6 (60_exceptions R200). -/
theorem takeFault (ht : t.Inv) (k : FaultKind) : (t.takeFault k).Inv := by
  obtain ⟨hpos, hle⟩ := k.code_range
  have hne : k.code ≠ 0 := fun h0 => by simp [h0] at hpos
  exact { ht with record := ⟨⟨nofun, fun h0 => absurd h0 hne⟩, hle⟩ }

theorem keptByOps : KeptByOps State.Inv where
  setReg r v ht := ht.setReg r v
  push := push
  pop := pop
  memWrite := memWrite
  gridWrite := gridWrite

end State.Inv

end Sys2Proof.Machine

namespace Sys2Proof.Proofs

open Sys2Proof.Machine

/-- Settles O39: the invariant is kept by every operation, by fault entry and by taking the request. -/
theorem stepKeepsInvariant : Obligations.StepKeepsInvariant :=
  fun _ _ hs h => State.Inv.keptByOps.step (fun k ht => ht.takeFault k) State.Inv.takeRequest hs h

/-- Settles O27: being equal to the state before in the parameters is kept by every operation, by fault entry and by
taking the request. -/
theorem parametersNeverChange : Obligations.ParametersNeverChange :=
  fun s _ h => s.sameParameters_keptByOps.step (fun _ ht => ht) id ⟨rfl, rfl, rfl⟩ h

end Sys2Proof.Proofs
end

section
/-! PROOF. `tos` has no influence (10_state R28; 93 I2): a relation of two states that agree in all an instruction reads
and that every operation keeps is kept by every instruction and by every step. To differ in `tos` alone is one. -/

namespace Sys2Proof.Machine

/-! ### Two runs of the same operation -/

/-- Both results are the same fault, or both are values that `R` relates. -/
inductive ResultsAgree {α β : Type} (R : α → β → Prop) : Except FaultKind α → Except FaultKind β → Prop
  | error (k : FaultKind) : ResultsAgree R (.error k) (.error k)
  | ok {v : α} {w : β} (h : R v w) : ResultsAgree R (.ok v) (.ok w)

/-- Sequences agree when their first operations agree, and their second ones on related values. -/
theorem ResultsAgree.bind {α β γ δ : Type} {R : α → β → Prop} {Q : γ → δ → Prop} {x : Except FaultKind α}
    {y : Except FaultKind β} {f : α → Except FaultKind γ} {g : β → Except FaultKind δ} (hxy : ResultsAgree R x y)
    (hfg : ∀ v w, R v w → ResultsAgree Q (f v) (g w)) : ResultsAgree Q (x >>= f) (y >>= g) := by
  cases hxy with
  | error k => exact .error k
  | ok h => exact hfg _ _ h

/-- The same words were read, and the states after the reads are related. -/
def SameRead {α : Type} (R : State → State → Prop) (p q : α × State) : Prop := q.1 = p.1 ∧ R p.2 q.2

/-- The same two operands were read, and the states after them are related. -/
def SameOperands (R : State → State → Prop) (p q : Word × Word × State) : Prop :=
  q.1 = p.1 ∧ SameRead R p.2 q.2

/-- Related states agree in their registers and configuration, and each operation an instruction's effect is made of
answers the same fault or the same word on both and leaves related states. -/
structure RespectedByOps (R : State → State → Prop) : Prop where
  regs : ∀ {s t}, R s t → t.regs = s.regs
  config : ∀ {s t}, R s t → t.config = s.config
  setReg : ∀ {s t} (r : Fin 8) (v : Word), R s t → R (s.setReg r v) (t.setReg r v)
  push : ∀ {s t} (v : Word), R s t → ResultsAgree R (s.push v) (t.push v)
  pop : ∀ {s t}, R s t → ResultsAgree (SameRead R) s.pop t.pop
  memRead : ∀ {s t} (addr : Nat), R s t → t.memRead addr = s.memRead addr
  memWrite : ∀ {s t} (addr : Nat) (v : Word), R s t → ResultsAgree R (s.memWrite addr v) (t.memWrite addr v)
  gridRead : ∀ {s t} (x y : Word), R s t → t.gridRead x y = s.gridRead x y
  gridWrite : ∀ {s t} (x y v : Word), R s t → ResultsAgree R (s.gridWrite x y v) (t.gridWrite x y v)

namespace RespectedByOps

variable {R : State → State → Prop} {s t : State}

theorem reg (hR : RespectedByOps R) (h : R s t) (r : Fin 8) : t.reg r = s.reg r := by
  simp only [State.reg, hR.regs h]

theorem advancePc (hR : RespectedByOps R) (h : R s t) : R s.advancePc t.advancePc := by
  rw [State.advancePc, State.advancePc, State.pc, State.pc, hR.reg h]
  exact hR.setReg _ _ h

theorem operand (hR : RespectedByOps R) (h : R s t) (f : Field) :
    ResultsAgree (SameRead R) (operand f s) (operand f t) := by
  have hc : t.config = s.config := hR.config h
  cases hd : s.config.dialect with
  | stack => rw [operand_stack hd, operand_stack (hc ▸ hd)]; exact hR.pop h
  | register => rw [operand_register hd, operand_register (hc ▸ hd)]; exact .ok ⟨hR.reg h _, h⟩

theorem operandPair (hR : RespectedByOps R) (h : R s t) (a b : Field) :
    ResultsAgree (SameOperands R) (operandPair a b s) (operandPair a b t) := by
  have hc : t.config = s.config := hR.config h
  cases hd : s.config.dialect with
  | stack =>
    rw [Machine.operandPair, Machine.operandPair, hc, hd]
    refine (hR.pop h).bind fun ⟨second, s₁⟩ ⟨_, t₁⟩ ⟨h₁, hst₁⟩ => ?_
    refine (hR.pop hst₁).bind fun ⟨first, s₂⟩ ⟨_, t₂⟩ ⟨h₂, hst₂⟩ => ?_
    exact .ok ⟨h₂, h₁, hst₂⟩
  | register =>
    rw [operandPair_register hd, operandPair_register (hc ▸ hd)]
    exact .ok ⟨hR.reg h _, hR.reg h _, h⟩

theorem deliver (hR : RespectedByOps R) (h : R s t) (a : Field) (v : Word) :
    ResultsAgree R (deliver a v s) (deliver a v t) := by
  have hc : t.config = s.config := hR.config h
  cases hd : s.config.dialect with
  | stack => rw [deliver_stack hd, deliver_stack (hc ▸ hd)]; exact hR.push v h
  | register => rw [deliver_register hd, deliver_register (hc ▸ hd)]; exact .ok (hR.setReg _ v h)

theorem binaryEffect (hR : RespectedByOps R) (h : R s t) (f : Word → Word → Word) (a b : Field) :
    ResultsAgree R (binaryEffect f a b s) (binaryEffect f a b t) := by
  refine (hR.operandPair h a b).bind ?_
  rintro ⟨lhs, rhs, s₁⟩ ⟨_, _, t₁⟩ ⟨rfl, rfl, h₁⟩
  exact hR.deliver h₁ a _

/-- Every instruction's effect answers the same fault on related states or leaves related states. -/
theorem effectOf (hR : RespectedByOps R) (h : R s t) (i : Instr) : ResultsAgree R (effectOf i s) (effectOf i t) := by
  have haddr (b : Field) : stackAddress b t = stackAddress b s := by simp only [stackAddress, hR.reg h]
  cases i with
  | const a b => exact hR.deliver h a b
  | push a b =>
    rw [Machine.effectOf, Machine.effectOf, hR.reg h]
    exact hR.push _ h
  | pop a b =>
    refine (hR.pop h).bind ?_
    rintro ⟨v, s₁⟩ ⟨_, t₁⟩ ⟨rfl, h₁⟩
    exact .ok (hR.setReg _ _ h₁)
  | load a b =>
    rw [Machine.effectOf, Machine.effectOf, haddr, hR.memRead _ h]
    cases s.memRead (stackAddress b s) with
    | error k => exact .error k
    | ok v => exact .ok (hR.setReg _ v h)
  | store a b =>
    rw [Machine.effectOf, Machine.effectOf, haddr, hR.reg h]
    exact hR.memWrite _ _ h
  | copy a b =>
    rw [Machine.effectOf, Machine.effectOf, hR.reg h]
    exact .ok (hR.setReg _ _ h)
  | jumpif a b =>
    refine (hR.operand h b).bind ?_
    rintro ⟨c, s₁⟩ ⟨_, t₁⟩ ⟨rfl, h₁⟩
    refine .ok ?_
    split
    · rw [hR.reg h₁]; exact hR.setReg _ _ h₁
    · exact h₁
  | not a b =>
    refine (hR.operand h a).bind ?_
    rintro ⟨v, s₁⟩ ⟨_, t₁⟩ ⟨rfl, h₁⟩
    exact hR.deliver h₁ a _
  | add a b | mult a b | and a b | or a b | xor a b | lshift a b | rshift a b | equals a b | lessthan a b =>
    exact hR.binaryEffect h _ a b
  | input a b =>
    refine (hR.operandPair h a b).bind ?_
    rintro ⟨xc, y, s₁⟩ ⟨_, _, t₁⟩ ⟨rfl, rfl, h₁⟩
    change ResultsAgree R (s₁.gridRead _ _ >>= _) (t₁.gridRead _ _ >>= _)
    rw [hR.gridRead _ _ h₁]
    cases s₁.gridRead _ _ with
    | error k => exact .error k
    | ok v => exact .ok (hR.setReg 2 v h₁)
  | output a b =>
    refine (hR.operandPair h a b).bind ?_
    rintro ⟨xc, y, s₁⟩ ⟨_, _, t₁⟩ ⟨rfl, rfl, h₁⟩
    change ResultsAgree R (s₁.gridWrite _ _ _) (t₁.gridWrite _ _ _)
    rw [hR.reg h₁]
    exact hR.gridWrite _ _ _ h₁

/-- The commit of agreeing results on related states leaves related states, where fault entry does. -/
theorem commit (hfault : ∀ (k : FaultKind), R (s.takeFault k) (t.takeFault k)) {x y : Except FaultKind State}
    (hxy : ResultsAgree R x y) {s' : State} (hs : commit s x = .next s') : ∃ t', commit t y = .next t' ∧ R s' t' := by
  cases hxy with
  | error k => cases hs; exact ⟨_, rfl, hfault k⟩
  | ok h => cases hs; exact ⟨_, rfl, h⟩

/-- An instruction takes related states to related states, where fault entry does. -/
theorem exec (hR : RespectedByOps R) (hfault : ∀ {s t} (k : FaultKind), R s t → R (s.takeFault k) (t.takeFault k))
    (h : R s t) {i : Instr} {s' : State} (hs : exec i s = .next s') : ∃ t', exec i t = .next t' ∧ R s' t' := by
  rw [exec_eq_perform, perform] at hs ⊢
  refine RespectedByOps.commit (fun k => hfault k h) ?_ hs
  rw [hR.config h]
  cases decodeChecks s.config i with
  | error k => exact .error k
  | ok _ => exact hR.effectOf (hR.advancePc h) i

/-- A step takes related states to related states, where fault entry and taking the request do and both states fetch
the same. -/
theorem step (hR : RespectedByOps R) (hfault : ∀ {s t} (k : FaultKind), R s t → R (s.takeFault k) (t.takeFault k))
    (hrequest : R s.takeRequest t.takeRequest) (hfaulted : t.faulted = s.faulted) (hfetch : nextInstr t = nextInstr s)
    {s' : State} (hs : step s = .next s') : ∃ t', step t = .next t' ∧ R s' t' := by
  rw [Machine.step, hfaulted, hfetch]
  rcases step_cases s with ⟨hf, hk⟩ | ⟨hf, k, hn, hk⟩ | ⟨hf, i, hn, hk⟩ <;> rw [hk] at hs
  · cases hs
    exact ⟨_, by rw [if_pos hf], hrequest⟩
  · cases hs
    exact ⟨_, by rw [if_neg (by simp [hf]), hn], hfault k hrequest⟩
  · rw [if_neg (by simp [hf]), hn]
    exact hR.exec hfault hrequest hs

end RespectedByOps

/-! ### States that differ in `tos` alone -/

/-- `t` is `s` but for `tos`. -/
def State.SameButTos (s t : State) : Prop := ∃ n, t = { s with tos := n }

/-- No operation reads `tos`; a push and a pop count it on from what it was. -/
theorem State.sameButTos_respectedByOps : RespectedByOps State.SameButTos where
  regs := by rintro s _ ⟨n, rfl⟩; rfl
  config := by rintro s _ ⟨n, rfl⟩; rfl
  setReg r v := by rintro ⟨n, rfl⟩; exact ⟨n, rfl⟩
  push v := by
    rintro ⟨n, rfl⟩
    simp only [State.push]
    split
    · exact .error _
    · exact .ok ⟨n + 1, rfl⟩
  pop := by
    rintro s _ ⟨n, rfl⟩
    simp only [State.pop]
    split
    · exact .ok ⟨rfl, n - 1, rfl⟩
    · exact .error _
  memRead addr := by rintro ⟨n, rfl⟩; rfl
  memWrite addr v := by
    rintro ⟨n, rfl⟩
    simp only [State.memWrite]
    split
    · exact .ok ⟨n, rfl⟩
    · exact .error _
  gridRead x y := by rintro ⟨n, rfl⟩; rfl
  gridWrite x y v := by
    rintro ⟨n, rfl⟩
    simp only [State.gridWrite]
    split
    · exact .ok ⟨n, rfl⟩
    · exact .error _

end Sys2Proof.Machine

namespace Sys2Proof.Proofs

open Sys2Proof.Machine

/-- Settles O30: to differ in `tos` alone is a relation every operation, fault entry and taking the request keep, and
the fetch does not read `tos`. -/
theorem tosIsNeverRead : Obligations.TosIsNeverRead := by
  intro s t n h
  obtain ⟨_, hstep, n', rfl⟩ := State.sameButTos_respectedByOps.step (t := { s with tos := n })
    (by rintro u _ k ⟨m, rfl⟩; exact ⟨m, rfl⟩) ⟨n, rfl⟩ rfl rfl h
  exact ⟨n', hstep⟩

end Sys2Proof.Proofs
end

section
/-! PROOF. What an instruction changes and what it leaves (10_state R27, R34): a completed effect changes the stack and
then at most one other cell, which the instruction names. -/

namespace Sys2Proof.Machine

/-! ### The stack part of the state -/

/-- `s` with another stack and another count of it. -/
def State.withStack (s : State) (stack : List Word) (tos : Nat) : State := { s with stack := stack, tos := tos }

@[simp] theorem State.withStack_config (s : State) (stack : List Word) (tos : Nat) :
    (s.withStack stack tos).config = s.config := rfl

@[simp] theorem State.withStack_reg (s : State) (stack : List Word) (tos : Nat) (r : Fin 8) :
    (s.withStack stack tos).reg r = s.reg r := rfl

@[simp] theorem State.withStack_gridOut (s : State) (stack : List Word) (tos : Nat) :
    (s.withStack stack tos).gridOut = s.gridOut := rfl

@[simp] theorem State.withStack_faulted (s : State) (stack : List Word) (tos : Nat) :
    (s.withStack stack tos).faulted = s.faulted := rfl

/-- A pop changes the stack alone. -/
theorem State.withStack_of_pop {t u : State} {v : Word} (h : t.pop = .ok (v, u)) :
    ∃ stack tos, u = t.withStack stack tos := by
  obtain ⟨base, _, rfl⟩ := State.of_pop_eq_ok h
  exact ⟨base, _, rfl⟩

/-- Reading one operand changes at most the stack. -/
theorem withStack_of_operand {f : Field} {t u : State} {v : Word} (h : operand f t = .ok (v, u)) :
    ∃ stack tos, u = t.withStack stack tos := by
  cases hd : t.config.dialect with
  | stack => rw [operand_stack hd] at h; exact State.withStack_of_pop h
  | register => rw [operand_register hd] at h; cases h; exact ⟨t.stack, t.tos, rfl⟩

/-- Reading two operands changes at most the stack. -/
theorem withStack_of_operandPair {a b : Field} {t u : State} {v w : Word} (h : operandPair a b t = .ok (v, w, u)) :
    ∃ stack tos, u = t.withStack stack tos := by
  cases hd : t.config.dialect with
  | stack =>
    rw [operandPair, hd] at h
    obtain ⟨⟨second, t₁⟩, h₁, h⟩ := bind_eq_ok h
    obtain ⟨⟨first, t₂⟩, h₂, h⟩ := bind_eq_ok h
    cases h
    obtain ⟨_, _, rfl⟩ := State.withStack_of_pop h₁
    obtain ⟨stack, tos, rfl⟩ := State.withStack_of_pop h₂
    exact ⟨stack, tos, rfl⟩
  | register => rw [operandPair_register hd] at h; cases h; exact ⟨t.stack, t.tos, rfl⟩

/-! ### What a completed effect changes -/

/-- The states instruction `i` can leave on `t`: with another stack, and then at most one other write, of its explicit
destination (10_state R27), of `x[0]` by JUMPIF, of `x[2]` by INPUT or of the output grid by OUTPUT. -/
inductive Leaves (i : Instr) (t : State) : State → Prop
  | stack (stack : List Word) (tos : Nat) : Leaves i t (t.withStack stack tos)
  | destination (stack : List Word) (tos : Nat) (f : Field) (v : Word)
      (hf : f ∈ Spec.destinations t.config.dialect i) : Leaves i t ((t.withStack stack tos).setReg (regIndex f) v)
  | jump (stack : List Word) (tos : Nat) (v : Word) (hi : i.opcode = .jumpif) :
      Leaves i t ((t.withStack stack tos).setReg 0 v)
  | input (stack : List Word) (tos : Nat) (v : Word) (hi : i.opcode = .input) :
      Leaves i t ((t.withStack stack tos).setReg 2 v)
  | output (stack : List Word) (tos : Nat) (m : Memory) (hi : i.opcode = .output) :
      Leaves i t { t.withStack stack tos with gridOut := m }

namespace Leaves

variable {i : Instr} {t u : State}

/-- A push changes the stack alone. -/
theorem of_push {stack : List Word} {tos : Nat} {v : Word} (h : (t.withStack stack tos).push v = .ok u) :
    Leaves i t u := by
  obtain ⟨_, rfl⟩ := State.of_push_eq_ok h
  exact .stack _ _

/-- A result goes to the stack, or to field `a` in the register dialect, where `a` is the destination. -/
theorem of_deliver {stack : List Word} {tos : Nat} {a : Field} {v : Word}
    (ha : t.config.dialect = .register → a ∈ Spec.destinations t.config.dialect i)
    (h : deliver a v (t.withStack stack tos) = .ok u) : Leaves i t u := by
  cases hd : t.config.dialect with
  | stack => rw [deliver_stack (by exact hd)] at h; exact of_push h
  | register => rw [deliver_register (by exact hd)] at h; cases h; exact .destination _ _ a v (ha hd)

/-- A binary operator delivers its result to field `a`. -/
theorem of_binaryEffect {f : Word → Word → Word} {a b : Field}
    (ha : t.config.dialect = .register → a ∈ Spec.destinations t.config.dialect i)
    (h : binaryEffect f a b t = .ok u) : Leaves i t u := by
  obtain ⟨⟨lhs, rhs, t₁⟩, h₁, h⟩ := bind_eq_ok h
  obtain ⟨_, _, rfl⟩ := withStack_of_operandPair h₁
  exact of_deliver ha h

/-- What every instruction's completed effect can leave. -/
theorem of_effectOf (h : effectOf i t = .ok u) : Leaves i t u := by
  cases i with
  | const a b => exact of_deliver (stack := t.stack) (tos := t.tos) (fun hd => by simp [Spec.destinations, hd]) h
  | push a b => exact of_push (stack := t.stack) (tos := t.tos) h
  | pop a b =>
    obtain ⟨⟨v, t₁⟩, h₁, h⟩ := bind_eq_ok h
    obtain ⟨_, _, rfl⟩ := State.withStack_of_pop h₁
    cases h
    exact .destination _ _ a v (by simp [Spec.destinations])
  | load a b =>
    obtain ⟨v, _, h⟩ := bind_eq_ok h
    cases h
    exact .destination t.stack t.tos a v (by simp [Spec.destinations])
  | store a b => cases State.of_memWrite_eq_ok h; exact .stack _ t.tos
  | copy a b => cases h; exact .destination t.stack t.tos a _ (by simp [Spec.destinations])
  | jumpif a b =>
    obtain ⟨⟨c, t₁⟩, h₁, h⟩ := bind_eq_ok h
    obtain ⟨_, _, rfl⟩ := withStack_of_operand h₁
    cases h
    split
    · exact .jump _ _ _ rfl
    · exact .stack _ _
  | not a b =>
    obtain ⟨⟨v, t₁⟩, h₁, h⟩ := bind_eq_ok h
    obtain ⟨_, _, rfl⟩ := withStack_of_operand h₁
    exact of_deliver (fun hd => by simp [Spec.destinations, hd]) h
  | add a b | mult a b | and a b | or a b | xor a b | lshift a b | rshift a b | equals a b | lessthan a b =>
    exact of_binaryEffect (fun hd => by simp [Spec.destinations, hd]) h
  | input a b =>
    obtain ⟨⟨xc, y, t₁⟩, h₁, h⟩ := bind_eq_ok h
    obtain ⟨v, _, h⟩ := bind_eq_ok h
    obtain ⟨_, _, rfl⟩ := withStack_of_operandPair h₁
    cases h
    exact .input _ _ v rfl
  | output a b =>
    obtain ⟨⟨xc, y, t₁⟩, h₁, h⟩ := bind_eq_ok h
    obtain ⟨_, _, rfl⟩ := withStack_of_operandPair h₁
    obtain ⟨_, rfl⟩ := State.of_gridWrite_eq_ok h
    exact .output _ _ _ rfl

/-- A register that is not written keeps its value. -/
theorem reg_eq {r : Fin 8} (h : Leaves i t u) (hdest : ∀ f ∈ Spec.destinations t.config.dialect i, regIndex f ≠ r)
    (hpc : r ≠ 0) (hinput : i.opcode = .input → r ≠ 2) : u.reg r = t.reg r := by
  cases h with
  | stack => rfl
  | destination _ _ f v hf => rw [State.reg_setReg_ne _ (hdest f hf), State.withStack_reg]
  | jump => rw [State.reg_setReg_ne _ hpc.symm, State.withStack_reg]
  | input _ _ v hi => rw [State.reg_setReg_ne _ (hinput hi).symm, State.withStack_reg]
  | output => rfl

/-- Only OUTPUT writes the output grid. -/
theorem gridOut_eq (h : Leaves i t u) (hi : i.opcode ≠ .output) : u.gridOut = t.gridOut := by
  cases h with
  | stack | destination | jump | input => rfl
  | output _ _ _ hout => exact absurd hout hi

end Leaves

/-- The next state of an instruction is the state before with a fault record, or what its completed effect leaves. -/
theorem of_exec_eq_next {i : Instr} {s t : State} (h : exec i s = .next t) :
    (∃ k, t = s.takeFault k) ∨ (i.wellFormed s.config = true ∧ effectOf i s.advancePc = .ok t) := by
  rw [exec_eq_perform] at h
  rcases perform_cases i (effectOf i) s with ⟨k, hk⟩ | ⟨hw, u, hu, hk⟩ <;> rw [hk] at h <;> cases h
  · exact .inl ⟨k, rfl⟩
  · exact .inr ⟨hw, hu⟩

/-! ### The register check -/

/-- A destination field of a well-formed instruction is in the range of R107. -/
theorem toNat_le_of_mem_destinations {c : Config} {i : Instr} {f : Field} (hw : i.wellFormed c = true)
    (hf : f ∈ Spec.destinations c.dialect i) : f.toNat ≤ 7 := by
  have hb : i.fieldBounds c := (wellFormed_iff c i).1 hw
  cases i with
  | push a b | store a b | jumpif a b | input a b | output a b => cases hf
  | pop a b => cases List.mem_singleton.1 hf; exact hb
  | load a b | copy a b => cases List.mem_singleton.1 hf; exact hb.1
  | const a b | not a b =>
    obtain ⟨hd, hf⟩ := List.mem_ite_nil_right.1 hf
    cases List.mem_singleton.1 hf
    exact hb hd
  | xor a b =>
    obtain ⟨hd, hf⟩ := List.mem_ite_nil_right.1 hf
    cases List.mem_singleton.1 hf
    exact (hb hd).2.1
  | add a b | mult a b | and a b | or a b | lshift a b | rshift a b | equals a b | lessthan a b =>
    obtain ⟨hd, hf⟩ := List.mem_ite_nil_right.1 hf
    cases List.mem_singleton.1 hf
    exact (hb hd).1

/-- A field in range that names register `r` is the number `r`. -/
theorem eq_ofNat_of_regIndex {f : Field} {r : Fin 8} (hf : f.toNat ≤ 7) (h : regIndex f = r) :
    f = BitVec.ofNat 16 r.val := by
  rw [← h, regIndex_val hf, BitVec.ofNat_toNat, BitVec.setWidth_eq]

/-! ### OUTPUT -/

/-- A completed OUTPUT had its coordinates and wrote the one cell they name, the stack apart. -/
theorem of_effectOf_output {a b : Field} {t u : State} (h : effectOf (.output a b) t = .ok u) :
    ∃ xc y stack tos, operandPair a b t = .ok (xc, y, t.withStack stack tos) ∧
      u = { t.withStack stack tos with gridOut := Memory.write t.gridOut (gridKey xc.toNat y.toNat) (t.reg 2) } := by
  obtain ⟨⟨xc, y, t₁⟩, h₁, h⟩ := bind_eq_ok h
  obtain ⟨stack, tos, rfl⟩ := withStack_of_operandPair h₁
  obtain ⟨_, rfl⟩ := State.of_gridWrite_eq_ok h
  exact ⟨xc, y, stack, tos, h₁, rfl⟩

end Sys2Proof.Machine

namespace Sys2Proof.Proofs

open Sys2Proof.Machine

/-- Settles O26: a fault writes no register, and a completed instruction passed the register check, so that a
destination field that names register `r` is the number `r`. -/
theorem onlyDestinationRegistersChange : Obligations.OnlyDestinationRegistersChange := by
  intro s t i r h hpc hdest hinput
  obtain ⟨k, rfl⟩ | ⟨hw, hu⟩ := of_exec_eq_next h
  · rfl
  · have hne : ∀ f ∈ Spec.destinations s.config.dialect i, regIndex f ≠ r := fun f hf hr =>
      hdest (eq_ofNat_of_regIndex (toNat_le_of_mem_destinations hw hf) hr ▸ hf)
    calc t.reg r = s.advancePc.reg r := (Leaves.of_effectOf hu).reg_eq hne hpc hinput
      _ = s.reg r := State.reg_advancePc_ne s hpc

/-- Settles O28: a fault leaves the grid, and a completed OUTPUT wrote the one cell of its coordinates. -/
theorem onlyOutputWritesOutputGrid : Obligations.OnlyOutputWritesOutputGrid := by
  refine ⟨fun s t i h hi => ?_, fun s t a b h => ?_⟩
  · obtain ⟨k, rfl⟩ | ⟨_, hu⟩ := of_exec_eq_next h
    · rfl
    · exact (Leaves.of_effectOf hu).gridOut_eq hi
  · obtain ⟨k, rfl⟩ | ⟨_, hu⟩ := of_exec_eq_next h
    · exact ⟨fun _ _ _ _ _ _ => rfl, fun _ _ => rfl, fun _ _ => rfl⟩
    · obtain ⟨xc, y, stack, tos, hpair, rfl⟩ := of_effectOf_output hu
      rw [hpair]
      refine ⟨?_, nofun, fun hs ht => ?_⟩
      · rintro _ _ _ ⟨⟩ key hkey
        exact Memory.read_write_ne hkey.symm _
      · exact absurd (hs.symm.trans ht) Bool.false_ne_true

end Sys2Proof.Proofs
end

section
/-! PROOF. Construct and the states reached from it (10_state R37; 70_reset_and_hazards R240): the input grid reads the
supplied values, and every constructed state meets the invariant, which steps keep. -/

namespace Sys2Proof.Machine

/-! ### What the loader accepts (70_reset_and_hazards R242) -/

/-- What is known of accepted construction data. -/
structure ConstructArgs.Legal (c : ConstructArgs) : Prop where
  side : 1 ≤ c.n ∧ c.n ≤ Config.maxSize
  length : c.program.length ≤ Config.maxSize
  rows : c.gridIn.length = c.n
  columns : ∀ row ∈ c.gridIn, row.length = c.n
  values : ∀ row ∈ c.gridIn, ∀ v ∈ row, 0 ≤ v ∧ v ≤ 65535

theorem ConstructArgs.accepted_iff (c : ConstructArgs) : c.accepted = true ↔ c.Legal := by
  simp only [ConstructArgs.accepted, Bool.and_eq_true, decide_eq_true_eq, List.all_eq_true]
  constructor
  · rintro ⟨⟨⟨⟨hside, hlength⟩, hrows⟩, hcolumns⟩, hvalues⟩
    exact ⟨hside, hlength, hrows, hcolumns, hvalues⟩
  · rintro ⟨hside, hlength, hrows, hcolumns, hvalues⟩
    exact ⟨⟨⟨⟨hside, hlength⟩, hrows⟩, hcolumns⟩, hvalues⟩

/-- What Construct answers: the initial state, of legal data. -/
theorem of_construct_eq_some {c : ConstructArgs} {s : State} (h : construct c = some s) :
    c.Legal ∧ s = State.initial c.config (c.program.map ProgramItem.toWord) (loadRows 0 c.gridIn []) := by
  rw [construct] at h
  split at h
  case isTrue ha => cases h; exact ⟨c.accepted_iff.1 ha, rfl⟩
  case isFalse => cases h

/-! ### The cells of a loaded grid -/

/-- Loading a row from column `x` on leaves the other rows and the columns before `x`. -/
theorem read_loadRow_of_outside {m : Memory} {x y x' y' : Nat} {vs : List Int} (hb : x + vs.length ≤ 65536)
    (hx' : x' < 65536) (hout : y' ≠ y ∨ x' < x) :
    Memory.read (loadRow y x vs m) (gridKey x' y') = Memory.read m (gridKey x' y') := by
  induction vs generalizing x m with
  | nil => rfl
  | cons v vs ih =>
    rw [List.length_cons] at hb
    have hkey : gridKey x y ≠ gridKey x' y' := fun hk => by
      obtain ⟨hxx, hyy⟩ := gridKey_inj (by omega) hx' hk
      omega
    rw [loadRow, ih (by omega) (by omega), Memory.read_write_ne hkey]

/-- A cell of a loaded row reads the value at its column. -/
theorem read_loadRow {m : Memory} (hm : Memory.wf m) {x y k : Nat} {vs : List Int} {v : Int}
    (hb : x + vs.length ≤ 65536) (hv : vs[k]? = some v) :
    Memory.read (loadRow y x vs m) (gridKey (x + k) y) = BitVec.ofInt 16 v := by
  induction vs generalizing x m k with
  | nil => cases hv
  | cons w vs ih =>
    rw [List.length_cons] at hb
    rw [loadRow]
    cases k with
    | zero =>
      cases hv
      rw [read_loadRow_of_outside (by omega) (by omega) (.inr (by omega))]
      exact Memory.read_write_same hm _ _
    | succ k =>
      rw [← Nat.add_assoc, Nat.add_right_comm]
      exact ih (Memory.write_wf hm _ _) (by omega) hv

/-- Loading rows from row `y` on leaves the rows before `y`. -/
theorem read_loadRows_of_lt {m : Memory} {x' y y' : Nat} {rows : List (List Int)}
    (hb : ∀ row ∈ rows, row.length ≤ 65536) (hx' : x' < 65536) (hy' : y' < y) :
    Memory.read (loadRows y rows m) (gridKey x' y') = Memory.read m (gridKey x' y') := by
  induction rows generalizing y m with
  | nil => rfl
  | cons row rows ih =>
    obtain ⟨hrow, hrows⟩ := List.forall_mem_cons.1 hb
    rw [loadRows, ih hrows (by omega), read_loadRow_of_outside (by omega) hx' (.inl (by omega))]

/-- A cell of a loaded grid reads the value at its row and column. -/
theorem read_loadRows {m : Memory} (hm : Memory.wf m) {x y k : Nat} {rows : List (List Int)} {row : List Int} {v : Int}
    (hb : ∀ row ∈ rows, row.length ≤ 65536) (hrow : rows[k]? = some row) (hv : row[x]? = some v) :
    Memory.read (loadRows y rows m) (gridKey x (y + k)) = BitVec.ofInt 16 v := by
  induction rows generalizing y m k with
  | nil => cases hrow
  | cons first rows ih =>
    obtain ⟨hfirst, hrows⟩ := List.forall_mem_cons.1 hb
    rw [loadRows]
    cases k with
    | zero =>
      cases hrow
      obtain ⟨hx, _⟩ := List.getElem?_eq_some_iff.1 hv
      rw [read_loadRows_of_lt hrows (by omega) (by omega)]
      simpa using read_loadRow hm (x := 0) (by omega) hv
    | succ k =>
      rw [← Nat.add_assoc, Nat.add_right_comm]
      exact ih (loadRow_wf hm _ _ _) hrows hrow

/-- A loaded row inside N × N keeps every listed cell inside. -/
theorem loadRow_inGrid {m : Memory} {n x y : Nat} {vs : List Int} (hm : Memory.inGrid m n) (hn : n ≤ 65536)
    (hx : x + vs.length ≤ n) (hy : y < n) : Memory.inGrid (loadRow y x vs m) n := by
  induction vs generalizing x m with
  | nil => exact hm
  | cons v vs ih =>
    rw [List.length_cons] at hx
    exact ih (Memory.write_inGrid hm (by omega) hy (by omega) _) (by omega)

/-- Loaded rows inside N × N keep every listed cell inside. -/
theorem loadRows_inGrid {m : Memory} {n y : Nat} {rows : List (List Int)} (hm : Memory.inGrid m n) (hn : n ≤ 65536)
    (hx : ∀ row ∈ rows, row.length = n) (hy : y + rows.length ≤ n) : Memory.inGrid (loadRows y rows m) n := by
  induction rows generalizing y m with
  | nil => exact hm
  | cons row rows ih =>
    obtain ⟨hrow, hrows⟩ := List.forall_mem_cons.1 hx
    rw [List.length_cons] at hy
    exact ih (loadRow_inGrid hm hn (by omega) (by omega)) hrows (by omega)

/-- A supplied cell value reads back as itself. -/
theorem toNat_ofInt_of_legal {v : Int} (h : 0 ≤ v ∧ v ≤ 65535) : ((BitVec.ofInt 16 v).toNat : Int) = v := by
  rw [BitVec.toNat_ofInt]; omega

/-- The input grid of legal data reads, at each row and column, the value supplied there. -/
theorem ConstructArgs.Legal.read_gridIn {c : ConstructArgs} (hc : c.Legal) {x y : Nat} {row : List Int} {v : Int}
    (hrow : c.gridIn[y]? = some row) (hv : row[x]? = some v) :
    ((Memory.read (loadRows 0 c.gridIn []) (gridKey x y)).toNat : Int) = v := by
  have hb : ∀ row ∈ c.gridIn, row.length ≤ 65536 := fun row hr => (hc.columns row hr).trans_le hc.side.2
  have hread := read_loadRows Memory.wf_nil (y := 0) hb hrow hv
  rw [Nat.zero_add] at hread
  rw [hread]
  exact toNat_ofInt_of_legal (hc.values row (List.mem_of_getElem? hrow) v (List.mem_of_getElem? hv))

/-! ### The invariant at the start of a run -/

/-- The initial state of parameters in range meets the invariant. -/
theorem State.Inv.initial {c : Config} {prog : List InstrWord} {gridIn : Memory}
    (hside : 1 ≤ c.n ∧ c.n ≤ Config.maxSize) (hlength : prog.length ≤ Config.maxSize) (hwf : Memory.wf gridIn)
    (hin : Memory.inGrid gridIn c.n) : (State.initial c prog gridIn).Inv where
  side := hside
  length := hlength
  capacity _ _ := Nat.zero_le _
  counter := rfl
  gridOut_wf := Memory.wf_nil
  gridOut_in := nofun
  gridIn_wf := hwf
  gridIn_in := hin
  record := ⟨⟨fun _ => rfl, fun _ => rfl⟩, Nat.zero_le _⟩

/-- Every state Construct answers meets the invariant. -/
theorem State.Inv.of_construct {c : ConstructArgs} {s : State} (h : construct c = some s) : s.Inv := by
  obtain ⟨hc, rfl⟩ := of_construct_eq_some h
  refine .initial hc.side ?_ (loadRows_wf Memory.wf_nil _ _) (loadRows_inGrid nofun hc.side.2 hc.columns ?_)
  · rw [List.length_map]; exact hc.length
  · rw [Nat.zero_add]; exact hc.rows.le

/-- What is supplied with a request is no part of the invariant. -/
theorem State.Inv.supply {s : State} (hs : s.Inv) (inj : Option InstrWord) : { s with supplied := inj }.Inv :=
  { hs with }

end Sys2Proof.Machine

namespace Sys2Proof.Proofs

open Sys2Proof.Machine

/-- Settles O34: Construct answers the initial state, whose input grid is the loaded rows. -/
theorem constructGivesResetValues : Obligations.ConstructGivesResetValues := by
  intro args s h
  obtain ⟨hc, rfl⟩ := of_construct_eq_some h
  exact ⟨State.reg_initial _ _ _, rfl, rfl, fun _ _ => rfl, rfl, rfl, rfl, rfl, fun _ _ _ _ => hc.read_gridIn⟩

/-- Settles O38: reset has parameters in range and empty grids, and Construct accepts legal data alone. -/
theorem resetMeetsInvariant : Obligations.ResetMeetsInvariant :=
  ⟨.initial (by decide) (by decide) Memory.wf_nil nofun, fun _ _ => State.Inv.of_construct⟩

/-- Settles O40, by induction on how the state is reached. -/
theorem reachableStatesMeetInvariant : Obligations.ReachableStatesMeetInvariant := by
  intro s hs
  induction hs with
  | construct args s h => exact .of_construct h
  | step s t inj _ h ih => exact stepKeepsInvariant _ t (ih.supply inj) h

end Sys2Proof.Proofs
end

section
/-! PROOF. What the host sees between steps (10_state R33, R39; 60_exceptions R220). -/

namespace Sys2Proof.Machine

/-! ### The host-visible registers as numbers -/

/-- The value of two fields side by side is the sum of their places. -/
theorem toNat_append_eq_add {m n : Nat} (x : BitVec m) (y : BitVec n) :
    (x ++ y).toNat = x.toNat * 2 ^ n + y.toNat := by
  rw [BitVec.toNat_append, ← Nat.shiftLeft_add_eq_or_of_lt y.isLt, Nat.shiftLeft_eq]

theorem toNat_cfgWord (s : State) :
    (cfgWord s).toNat = (s.config.dialect == .register).toNat + 2 * s.config.xorInRegister.toNat +
      4 * s.config.stackCapacity.isSome.toNat := by
  simp only [cfgWord, toNat_append_eq_add, BitVec.toNat_ofBool, BitVec.toNat_ofNat]
  omega

theorem toNat_statusWord (s : State) :
    (statusWord s).toNat = s.runnable.toNat + 2 * s.faulted.toNat + 4 * s.faultCode.toNat := by
  simp only [statusWord, toNat_append_eq_add, BitVec.toNat_ofBool, BitVec.toNat_ofNat]
  omega

/-- A size in range fits its 17 bits. -/
theorem toNat_sizeWord {n : Nat} (h : n ≤ Config.maxSize) : (0#15 ++ BitVec.ofNat 17 n).toNat = n := by
  rw [Config.maxSize] at h
  rw [toNat_append_eq_add, BitVec.toNat_ofNat, BitVec.toNat_ofNat]
  omega

theorem toNat_eq_ite (b : Bool) : b.toNat = if b then 1 else 0 := by cases b <;> rfl

/-- CFG shows the dialect, the XOR parameter and whether the stack is bounded. -/
theorem hostRegister_cfg (s : State) :
    hostRegister s 0 = (if s.config.dialect = .register then 1 else 0) +
      2 * (if s.config.xorInRegister then 1 else 0) + 4 * (if s.config.stackCapacity = none then 0 else 1) := by
  have hbounded : s.config.stackCapacity.isSome.toNat = if s.config.stackCapacity = none then 0 else 1 := by
    cases s.config.stackCapacity <;> rfl
  rw [hostRegister, toNat_cfgWord, hbounded]
  simp only [toNat_eq_ite, beq_iff_eq]

/-- CFG_N shows the grid side. -/
theorem hostRegister_cfgN {s : State} (hs : s.Inv) : hostRegister s 1 = s.config.n := toNat_sizeWord hs.side.2

/-- CFG_L shows the program length. -/
theorem hostRegister_cfgL {s : State} (hs : s.Inv) : hostRegister s 2 = s.prog.length := toNat_sizeWord hs.length

/-- CFG_STACK_CAPACITY shows a finite capacity. -/
theorem hostRegister_stackCapacity {s : State} {c : Nat} (hc : s.config.stackCapacity = some c) :
    hostRegister s 3 = c := by
  rw [hostRegister, cfgStackCapacity, hc]

/-- STATUS shows whether the core is runnable and the fault record. -/
theorem hostRegister_status (s : State) :
    hostRegister s 4 = (if s.regs[0].toNat < s.prog.length then 1 else 0) + 2 * (if s.faulted then 1 else 0) +
      4 * s.faultCode.toNat := by
  have hrunnable : s.runnable.toNat = if s.regs[0].toNat < s.prog.length then 1 else 0 := by
    rw [toNat_eq_ite, State.runnable, State.pc]
    simp only [decide_eq_true_eq]
    rfl
  rw [hostRegister, toNat_statusWord, hrunnable, toNat_eq_ite]

/-- Without a fault, STATUS shows RUNNABLE alone. -/
theorem hostRegister_status_lt_two {s : State} (hs : s.recordLegal) (hf : s.faulted = false) :
    hostRegister s 4 < 2 := by
  have hcode : s.faultCode = 0 := hs.1.1 hf
  rw [hostRegister, toNat_statusWord, hf, hcode]
  exact s.runnable.toNat_lt

/-- STATUS of a legal fault record is below 28: its code is at most 6. -/
theorem hostRegister_status_lt {s : State} (hs : s.recordLegal) : hostRegister s 4 < 28 := by
  obtain ⟨_, hcode⟩ := hs
  have hrunnable := s.runnable.toNat_lt
  have hfaulted := s.faulted.toNat_lt
  rw [hostRegister, toNat_statusWord]
  omega

/-- STATUS right after construction shows whether there is a program. -/
theorem hostRegister_status_initial (c : Config) (prog : List InstrWord) (gridIn : Memory) :
    hostRegister (State.initial c prog gridIn) 4 = if 0 < prog.length then 1 else 0 := by
  rw [hostRegister_status]
  rfl

/-! ### The reads (60_exceptions R220) -/

/-- A read of the stack answers the element. -/
theorem transact_readStack {s : State} {i : Nat} (h : i < s.stack.length) :
    transact (.readStack i) s = (.value s.stack[i].toNat, s) := by
  rw [transact, List.getElem?_eq_getElem h]

/-- A read of the stack from its length on is the host's error. -/
theorem transact_readStack_of_length_le {s : State} {i : Nat} (h : s.stack.length ≤ i) :
    transact (.readStack i) s = (.hostError, s) := by
  rw [transact, List.getElem?_eq_none h]

/-- A read of the output grid answers the cell. -/
theorem transact_readGridOut {s : State} {x y : Nat} (hx : x < s.config.n) (hy : y < s.config.n) :
    transact (.readGridOut x y) s = (.value (s.gridOutAt x y).toNat, s) := by
  rw [transact, if_pos ⟨hx, hy⟩]

/-- A read outside the output grid is the host's error. -/
theorem transact_readGridOut_of_outside {s : State} {x y : Nat} (h : s.config.n ≤ x ∨ s.config.n ≤ y) :
    transact (.readGridOut x y) s = (.hostError, s) := by
  rw [transact, if_neg (by omega)]

end Sys2Proof.Machine

namespace Sys2Proof.Proofs

open Sys2Proof.Machine

/-- Settles O41: each register by its own lemma, and after construction by the lemmas of the initial state. -/
theorem hostRegistersShowTheirFields : Obligations.HostRegistersShowTheirFields := by
  refine ⟨fun s hs => ?_, fun _ _ _ => rfl, fun args s h => ?_, fun d n program grid s h => ?_⟩
  · exact ⟨hostRegister_cfg s, hostRegister_cfgN hs, hostRegister_cfgL hs, fun _ => hostRegister_stackCapacity,
      hostRegister_status s, hostRegister_status_lt_two hs.record, hostRegister_status_lt hs.record, rfl,
      hs.capacity, hs.counter⟩
  · have hs : s.Inv := .of_construct h
    obtain ⟨_, rfl⟩ := of_construct_eq_some h
    have hlength : (args.program.map ProgramItem.toWord).length = args.program.length := List.length_map _
    exact ⟨hostRegister_cfgN hs, (hostRegister_cfgL hs).trans hlength,
      hlength ▸ hostRegister_status_initial _ _ _, rfl, rfl⟩
  · obtain ⟨_, rfl⟩ := of_construct_eq_some h
    rfl

/-- Settles O42: each read by its row of 60_exceptions R220. -/
theorem hostReadsChangeNothing : Obligations.HostReadsChangeNothing := fun _ =>
  ⟨fun _ => rfl, fun _ => transact_readStack, fun _ => transact_readStack_of_length_le,
    fun _ _ => transact_readGridOut, fun _ _ => transact_readGridOut_of_outside, fun _ => rfl⟩

end Sys2Proof.Proofs
end

section
/-! PROOF. The output grid has no influence (20_memory R59; 10_state R34): to differ in the output grid alone is a
relation that every operation respects, the write of a cell included. -/

namespace Sys2Proof.Machine

/-- `t` is `s` but for the output grid. -/
def State.SameButGridOut (s t : State) : Prop := ∃ g, t = { s with gridOut := g }

/-- No operation reads the output grid: whether a write of a cell completes depends on its coordinates and `N` alone,
and each of the two grids then gets the cell. -/
theorem State.sameButGridOut_respectedByOps : RespectedByOps State.SameButGridOut where
  regs := by rintro s _ ⟨g, rfl⟩; rfl
  config := by rintro s _ ⟨g, rfl⟩; rfl
  setReg r v := by rintro ⟨g, rfl⟩; exact ⟨g, rfl⟩
  push v := by
    rintro ⟨g, rfl⟩
    simp only [State.push]
    split
    · exact .error _
    · exact .ok ⟨g, rfl⟩
  pop := by
    rintro s _ ⟨g, rfl⟩
    simp only [State.pop]
    split
    · exact .ok ⟨rfl, g, rfl⟩
    · exact .error _
  memRead addr := by rintro ⟨g, rfl⟩; rfl
  memWrite addr v := by
    rintro ⟨g, rfl⟩
    simp only [State.memWrite]
    split
    · exact .ok ⟨g, rfl⟩
    · exact .error _
  gridRead x y := by rintro ⟨g, rfl⟩; rfl
  gridWrite x y v := by
    rintro ⟨g, rfl⟩
    simp only [State.gridWrite]
    split
    · exact .ok ⟨Memory.write g (gridKey x.toNat y.toNat) v, rfl⟩
    · exact .error _

/-- Fault entry writes the fault record only (60_exceptions R205). -/
theorem State.SameButGridOut.takeFault {s t : State} (h : s.SameButGridOut t) (k : FaultKind) :
    (s.takeFault k).SameButGridOut (t.takeFault k) := by
  obtain ⟨g, rfl⟩ := h
  exact ⟨g, rfl⟩

/-- Taking the request consumes the supplied instruction and leaves both output grids. -/
theorem State.SameButGridOut.takeRequest {s t : State} (h : s.SameButGridOut t) :
    s.takeRequest.SameButGridOut t.takeRequest := by
  obtain ⟨g, rfl⟩ := h
  exact ⟨g, rfl⟩

/-- Neither the fetch from the program nor a supplied instruction depends on the output grid. -/
theorem State.SameButGridOut.nextInstr_eq {s t : State} (h : s.SameButGridOut t) : nextInstr t = nextInstr s := by
  obtain ⟨g, rfl⟩ := h
  rfl

end Sys2Proof.Machine

namespace Sys2Proof.Proofs

open Sys2Proof.Machine

/-- Settles O29: the operations, fault entry and taking the request respect the relation of states that differ in the
output grid alone, and such states fetch the same instruction. -/
theorem outputGridIsNeverRead : Obligations.OutputGridIsNeverRead := by
  intro s t g hstep
  have hsame : s.SameButGridOut { s with gridOut := g } := ⟨g, rfl⟩
  obtain ⟨_, hstep', g', rfl⟩ := State.sameButGridOut_respectedByOps.step (fun k h => h.takeFault k)
    hsame.takeRequest rfl hsame.nextInstr_eq hstep
  exact ⟨g', hstep'⟩

end Sys2Proof.Proofs
end

section
/-! PROOF. The encoding (30_encoding): a word is its three fields and an opcode is its number, so that decoding and
encoding are inverse; and what the word that a loader makes of a triple decodes to. -/

namespace Sys2Proof

/-! ### An instruction and its parts -/

@[simp] theorem Instr.opcode_make (op : Opcode) (a b : Field) : (Instr.make op a b).opcode = op := by
  cases op <;> rfl

theorem Instr.fields_make (op : Opcode) (a b : Field) : (Instr.make op a b).fields = (a, b) := by
  cases op <;> rfl

@[simp] theorem Instr.a_make (op : Opcode) (a b : Field) : (Instr.make op a b).a = a :=
  congrArg Prod.fst (Instr.fields_make op a b)

@[simp] theorem Instr.b_make (op : Opcode) (a b : Field) : (Instr.make op a b).b = b :=
  congrArg Prod.snd (Instr.fields_make op a b)

@[simp] theorem Instr.make_opcode (i : Instr) : Instr.make i.opcode i.a i.b = i := by
  cases i <;> rfl

/-! ### Opcode numbers (30_encoding R82) -/

@[simp] theorem Opcode.ofNumber_number (op : Opcode) : Opcode.ofNumber op.number = some op := by
  cases op <;> rfl

/-- No second number names an opcode. -/
theorem Opcode.number_of_ofNumber {n : BitVec 8} {op : Opcode} (h : Opcode.ofNumber n = some op) : op.number = n := by
  unfold Opcode.ofNumber at h
  split at h <;> cases h
  all_goals exact (BitVec.eq_of_toNat_eq ‹_›).symm

/-! ### Words and their fields (30_encoding R81) -/

/-- The three fields are all of a word. -/
theorem InstrWord.append_fields (w : InstrWord) : InstrWord.op w ++ InstrWord.a w ++ InstrWord.b w = w := by
  have hhigh : w.extractLsb' 32 8 ++ w.extractLsb' 16 16 = w.extractLsb' 16 24 :=
    BitVec.extractLsb'_append_extractLsb'_eq_extractLsb' (start₁ := 16) (len₁ := 16) rfl
  have hall : w.extractLsb' 16 24 ++ w.extractLsb' 0 16 = w.extractLsb' 0 40 :=
    BitVec.extractLsb'_append_extractLsb'_eq_extractLsb' (start₁ := 0) (len₁ := 16) rfl
  calc InstrWord.op w ++ InstrWord.a w ++ InstrWord.b w
      = w.extractLsb' 16 24 ++ w.extractLsb' 0 16 := congrArg (· ++ w.extractLsb' 0 16) hhigh
    _ = w.extractLsb' 0 40 := hall
    _ = w := BitVec.extractLsb'_eq_self

theorem encode_make (op : Opcode) (a b : Field) : encode (Instr.make op a b) = op.number ++ a ++ b := by
  rw [encode, Instr.opcode_make, Instr.a_make, Instr.b_make]

/-- A word with an assigned opcode decodes to that opcode with the word's operand fields. -/
theorem decode_of_ofNumber_eq_some {w : InstrWord} {op : Opcode} (h : Opcode.ofNumber (InstrWord.op w) = some op) :
    decode w = .ok (Instr.make op (InstrWord.a w) (InstrWord.b w)) := by
  rw [decode, h]

theorem decode_of_ofNumber_eq_none {w : InstrWord} (h : Opcode.ofNumber (InstrWord.op w) = none) :
    decode w = .error (.unassignedOpcode (InstrWord.op w)) := by
  rw [decode, h]

/-- The words that decode are those with an assigned opcode. -/
theorem decode_eq_ok_iff {w : InstrWord} {i : Instr} :
    decode w = .ok i ↔
      ∃ op, Opcode.ofNumber (InstrWord.op w) = some op ∧ Instr.make op (InstrWord.a w) (InstrWord.b w) = i := by
  cases h : Opcode.ofNumber (InstrWord.op w) with
  | none => simp [decode_of_ofNumber_eq_none h]
  | some op => simp [decode_of_ofNumber_eq_some h]

/-- Decoding gives an encoded instruction back. -/
@[simp] theorem decode_encode (i : Instr) : decode (encode i) = .ok i := by
  obtain ⟨hop, ha, hb, hnumber⟩ := Laws.WordFields.of_number (Opcode.ofNumber_number i.opcode)
  rw [decode_of_ofNumber_eq_some (hop ▸ hnumber), ha, hb, Instr.make_opcode]

/-- A word that decodes is the word of what it decodes to. -/
theorem encode_of_decode {w : InstrWord} {i : Instr} (h : decode w = .ok i) : encode i = w := by
  obtain ⟨op, hop, rfl⟩ := decode_eq_ok_iff.1 h
  rw [encode_make, Opcode.number_of_ofNumber hop, InstrWord.append_fields]

/-! ### The loader (30_encoding R84) -/

/-- A loader's field holds the integer where it fits, and 65535 where it does not. -/
theorem toNat_loadField (v : Int) : ((loadField v).toNat : Int) = if 0 ≤ v ∧ v ≤ 65535 then v else 65535 := by
  rw [loadField]
  split
  · next h => exact Machine.toNat_ofInt_of_legal h
  · rfl

/-- A loader's field lies in the register range exactly when the integer does, since 65535 is no register. -/
theorem toNat_loadField_le_iff (v : Int) : (loadField v).toNat ≤ 7 ↔ 0 ≤ v ∧ v ≤ 7 := by
  have h := toNat_loadField v
  split at h <;> omega

theorem toNat_loadField_of_register {v : Int} (h : 0 ≤ v ∧ v ≤ 7) : ((loadField v).toNat : Int) = v := by
  rw [toNat_loadField, if_pos (by omega)]

/-- The second field of a loaded triple: CONST's immediate is reduced, any other operand is not. -/
def loadSecondField (op : Opcode) (b : Int) : Field :=
  if op = .const then BitVec.ofInt 16 (b % 65536) else loadField b

/-- The loader's word of a triple with a known tag is the word of one instruction. -/
theorem loadTriple_some (op : Opcode) (a b : Int) :
    loadTriple ⟨some op, a, b⟩ = encode (Instr.make op (loadField a) (loadSecondField op b)) := by
  cases op <;> rfl

theorem decode_loadTriple_some (op : Opcode) (a b : Int) :
    decode (loadTriple ⟨some op, a, b⟩) = .ok (Instr.make op (loadField a) (loadSecondField op b)) := by
  rw [loadTriple_some, decode_encode]

theorem loadSecondField_of_ne {op : Opcode} (h : op ≠ .const) (b : Int) : loadSecondField op b = loadField b :=
  if_neg h

theorem toNat_loadSecondField_const (b : Int) : ((loadSecondField .const b).toNat : Int) = b % 65536 :=
  Machine.toNat_ofInt_of_legal (by omega)

/-- The loader's word of a triple with an unknown tag has opcode field 0. -/
theorem op_loadTriple_none (a b : Int) : InstrWord.op (loadTriple ⟨none, a, b⟩) = 0 :=
  (Laws.WordFields.fields_of_append _ _ _).1

/-- A triple's tag is the opcode its word decodes to, and no opcode where the word does not decode. -/
theorem decodeTableWord_loadTriple (t : Triple) :
    (decodeTableWord 40 (loadTriple t).toNat).map Instr.opcode = t.tag := by
  have hword : tableWord 40 (loadTriple t).toNat = loadTriple t := by
    rw [tableWord, Nat.mod_eq_of_lt (loadTriple t).isLt, BitVec.ofNat_toNat, BitVec.setWidth_eq]
  rw [decodeTableWord, if_pos le_rfl, hword]
  obtain ⟨_ | op, a, b⟩ := t
  · rw [decode_of_ofNumber_eq_none (by rw [op_loadTriple_none]; rfl)]; rfl
  · rw [decode_loadTriple_some]; exact congrArg some (Instr.opcode_make op _ _)

end Sys2Proof

namespace Sys2Proof.Proofs

open Sys2Proof.Spec

/-- Settles O15: the word of an instruction has its opcode number and its operands as fields, and a word has no bits
but those of its fields. -/
theorem decodeInvertsEncode : Obligations.DecodeInvertsEncode :=
  ⟨decode_encode, fun _ _ => encode_of_decode⟩

/-- Settles O17: the word of a known tag is the word of the instruction with the loader's two fields, and the word of
an unknown tag has the unassigned opcode 0. -/
theorem loaderKeepsTripleMeaning : Obligations.LoaderKeepsTripleMeaning := by
  refine ⟨fun a b => ⟨op_loadTriple_none a b, _, decode_of_ofNumber_eq_none ?_⟩, fun op a b => ?_⟩
  · rw [op_loadTriple_none]; rfl
  · refine ⟨_, decode_loadTriple_some op a b, Instr.opcode_make _ _ _, ?_⟩
    rw [Instr.a_make, Instr.b_make]
    refine ⟨toNat_loadField_le_iff a, toNat_loadField_of_register, fun hop => ?_, ?_⟩
    · rw [loadSecondField_of_ne hop]
      exact ⟨toNat_loadField_le_iff b, toNat_loadField_of_register⟩
    · rintro rfl
      exact toNat_loadSecondField_const b

/-- Settles O16: the 22 words are computed, and that each decodes to its triple's opcode is so of every triple. -/
theorem workedEncodingsDecode : Obligations.WorkedEncodingsDecode := by
  have hwords : ∀ p ∈ workedEncodings, (loadTriple p.1).toNat = p.2 := by decide
  intro p hp
  exact ⟨hwords p hp, hwords p hp ▸ decodeTableWord_loadTriple p.1⟩

end Sys2Proof.Proofs
end

section
/-! PROOF. Unused fields (30_encoding R87): the decode checks look at an instruction's opcode and register-role fields
alone, and its effect at the fields it uses alone. -/

namespace Sys2Proof

/-- The register check is a bound on the register-role fields (40_step_cycle R107). -/
theorem registersInRange_iff (c : Config) (i : Instr) :
    registersInRange c i = true ↔ ∀ f ∈ Spec.registerFields c.dialect i, f.toNat ≤ 7 := by
  cases hd : c.dialect <;> cases i <;>
    simp [registersInRange, operandRoles, Spec.registerFields, Instr.opcode, Instr.a, Instr.b, Instr.fields, hd]

/-- The register-role fields are among the used ones, at places the opcode fixes. -/
theorem registerFields_eq_of_usedFields_eq {d : Dialect} {op : Opcode} {a b a' b' : Field}
    (h : Spec.usedFields d (.make op a b) = Spec.usedFields d (.make op a' b')) :
    Spec.registerFields d (.make op a b) = Spec.registerFields d (.make op a' b') := by
  cases op with
  | const => exact (List.cons.inj h).2
  | _ => exact h

end Sys2Proof

namespace Sys2Proof.Machine

/-- The outcome of the decode checks depends on the opcode and on the used fields. -/
theorem decodeChecks_make_eq {c : Config} {op : Opcode} {a b a' b' : Field}
    (h : Spec.usedFields c.dialect (.make op a b) = Spec.usedFields c.dialect (.make op a' b')) :
    decodeChecks c (.make op a b) = decodeChecks c (.make op a' b') := by
  have hrange : registersInRange c (.make op a b) = registersInRange c (.make op a' b') := by
    rw [Bool.eq_iff_iff, registersInRange_iff, registersInRange_iff, registerFields_eq_of_usedFields_eq h]
  rw [decodeChecks, decodeChecks, Instr.opcode_make, Instr.opcode_make, hrange]

/-! ### Operands that the stack dialect takes from the stack -/

/-- Sequences with one first operation are the same where their second operations are, on what the first can answer. -/
theorem bind_eq_of_ok {α β : Type} {x : Except FaultKind α} {f g : α → Except FaultKind β}
    (h : ∀ v, x = .ok v → f v = g v) : (x >>= f) = x >>= g := by
  cases x with
  | error k => rfl
  | ok v => exact h v rfl

section

variable {t : State} {a a' b b' : Field}

/-- The field of one operand matters in the register dialect only. -/
theorem operand_eq_of_register (h : t.config.dialect = .register → a = a') : operand a t = operand a' t := by
  cases hd : t.config.dialect with
  | stack => rw [operand_stack hd, operand_stack hd]
  | register => rw [h hd]

/-- The fields of two operands matter in the register dialect only. -/
theorem operandPair_eq_of_register (h : t.config.dialect = .register → a = a' ∧ b = b') :
    operandPair a b t = operandPair a' b' t := by
  cases hd : t.config.dialect with
  | stack => rw [operandPair, operandPair, hd]
  | register => obtain ⟨rfl, rfl⟩ := h hd; rfl

/-- The field of a delivery matters in the register dialect only. -/
theorem deliver_eq_of_register (h : t.config.dialect = .register → a = a') (v : Word) :
    deliver a v t = deliver a' v t := by
  cases hd : t.config.dialect with
  | stack => rw [deliver_stack hd, deliver_stack hd]
  | register => rw [h hd]

/-- The fields of a binary operator matter in the register dialect only. -/
theorem binaryEffect_eq_of_register (f : Word → Word → Word) (h : t.config.dialect = .register → a = a' ∧ b = b') :
    binaryEffect f a b t = binaryEffect f a' b' t := by
  rw [binaryEffect, binaryEffect, operandPair_eq_of_register h]
  refine bind_eq_of_ok fun ⟨lhs, rhs, u⟩ hu => ?_
  obtain ⟨stack, tos, rfl⟩ := withStack_of_operandPair hu
  exact deliver_eq_of_register (t := t.withStack stack tos) (fun hd => (h hd).1) _

end

/-- Fields used in the register dialect only are the same where the used fields are. -/
theorem eq_of_ite_register_eq {d : Dialect} {l l' : List Field}
    (h : (if d = .register then l else []) = if d = .register then l' else []) (hd : d = .register) : l = l' := by
  rwa [if_pos hd, if_pos hd] at h

theorem pair_eq_of_ite_register_eq {d : Dialect} {a b a' b' : Field}
    (h : (if d = .register then [a, b] else []) = if d = .register then [a', b'] else []) (hd : d = .register) :
    a = a' ∧ b = b' := by
  cases eq_of_ite_register_eq h hd
  exact ⟨rfl, rfl⟩

/-- The used fields of JUMPIF: its target, and its condition in the register dialect. -/
theorem eq_of_usedFields_jumpif_eq {d : Dialect} {a b a' b' : Field}
    (h : Spec.usedFields d (.jumpif a b) = Spec.usedFields d (.jumpif a' b')) :
    a = a' ∧ (d = .register → b = b') := by
  cases d with
  | stack => cases h; exact ⟨rfl, nofun⟩
  | register => cases h; exact ⟨rfl, fun _ => rfl⟩

/-- The effect of an instruction depends on its opcode and on the fields it uses. -/
theorem effectOf_make_eq {t : State} {op : Opcode} {a b a' b' : Field}
    (h : Spec.usedFields t.config.dialect (.make op a b) = Spec.usedFields t.config.dialect (.make op a' b')) :
    effectOf (.make op a b) t = effectOf (.make op a' b') t := by
  cases op with
  | const =>
    obtain ⟨rfl, hreg⟩ := List.cons.inj h
    exact deliver_eq_of_register (fun hd => List.head_eq_of_cons_eq (eq_of_ite_register_eq hreg hd)) b
  | push | pop =>
    obtain rfl : a = a' := List.head_eq_of_cons_eq h
    rfl
  | load | store | copy =>
    cases h
    rfl
  | jumpif =>
    obtain ⟨rfl, hb⟩ := eq_of_usedFields_jumpif_eq h
    simp only [Instr.make, effectOf, operand_eq_of_register hb]
  | not =>
    have ha (hd : t.config.dialect = .register) : a = a' := List.head_eq_of_cons_eq (eq_of_ite_register_eq h hd)
    simp only [Instr.make, effectOf, operand_eq_of_register ha]
    refine bind_eq_of_ok fun ⟨v, u⟩ hu => ?_
    obtain ⟨stack, tos, rfl⟩ := withStack_of_operand hu
    exact deliver_eq_of_register (t := t.withStack stack tos) ha _
  | add | mult | and | or | xor | lshift | rshift | equals | lessthan =>
    exact binaryEffect_eq_of_register _ (pair_eq_of_ite_register_eq h)
  | input | output =>
    simp only [Instr.make, effectOf, operandPair_eq_of_register (pair_eq_of_ite_register_eq h)]

/-- Instructions of one opcode with the same used fields run alike. -/
theorem exec_make_eq {s : State} {op : Opcode} {a b a' b' : Field}
    (h : Spec.usedFields s.config.dialect (.make op a b) = Spec.usedFields s.config.dialect (.make op a' b')) :
    exec (.make op a b) s = exec (.make op a' b') s := by
  rw [exec_eq_perform, exec_eq_perform, perform, perform, decodeChecks_make_eq h,
    effectOf_make_eq (t := s.advancePc) h]

end Sys2Proof.Machine

namespace Sys2Proof.Proofs

open Sys2Proof.Machine

/-- Settles O23: an instruction is made of its opcode and its two fields, of which the checks and the effect look at the
used ones alone; and the word of any fields decodes, as an encoded instruction does. -/
theorem unusedFieldsAreIgnored : Obligations.UnusedFieldsAreIgnored := by
  refine ⟨fun s i j hop hused => ?_, fun op a b => ?_⟩
  · rw [← i.make_opcode, ← j.make_opcode, ← hop] at hused ⊢
    exact exec_make_eq hused
  · rw [Spec.formatT, ← encode_make, decode_encode]

end Sys2Proof.Proofs
end

section
/-! PROOF. What faults an instruction raises and where (40_step_cycle R105, R107; 60_exceptions R202 to R208): the decode
checks raise two kinds, the effects raise three others. -/

namespace Sys2Proof

/-! ### Availability (30_encoding R85; 40_step_cycle R105) -/

/-- Every opcode number is an assigned one. -/
theorem Opcode.number_range (op : Opcode) : 1 ≤ op.number.toNat ∧ op.number.toNat < 0x14 := by
  cases op <;> decide

theorem Opcode.number_eq_xor_iff (op : Opcode) : op.number = 0x0D ↔ op = .xor := by
  cases op <;> decide

/-- Only XOR can be unavailable, in the register dialect by its parameter. -/
theorem decodable_eq_false_iff (c : Config) (op : Opcode) :
    decodable c op = false ↔ op = .xor ∧ c.dialect = .register ∧ c.xorInRegister = false := by
  cases hd : c.dialect <;> cases op <;> simp [decodable, hd]

/-- The opcode field of an instruction's word is illegal exactly where the instruction is not decodable. -/
theorem illegalOp_encode_iff (c : Config) (i : Instr) :
    Spec.illegalOp c (encode i) ↔ decodable c i.opcode = false := by
  obtain ⟨hop, -⟩ := Laws.WordFields.of_number (Opcode.ofNumber_number i.opcode)
  obtain ⟨hpos, hlt⟩ := i.opcode.number_range
  have hne : i.opcode.number ≠ 0 := fun h0 => absurd hpos (by rw [h0]; decide)
  rw [Spec.illegalOp, hop, decodable_eq_false_iff, Opcode.number_eq_xor_iff, or_iff_right hne,
    or_iff_right (Nat.not_le.2 hlt)]

end Sys2Proof

namespace Sys2Proof.Machine

/-! ### The faults of the effects (60_exceptions R204, R207, R208) -/

/-- The fault kinds an instruction's effect can raise: those of the stack and of the grids, none of the fetch or of the
decode checks. -/
inductive FaultKind.OfEffect : FaultKind → Prop
  | stackUnderflow : OfEffect .stackUnderflow
  | gridOutOfBounds : OfEffect .gridOutOfBounds
  | stackOverflow : OfEffect .stackOverflow

/-- The codes of the effects' faults are 4, 5 and 6. -/
theorem FaultKind.OfEffect.four_le_code {k : FaultKind} (h : k.OfEffect) : 4 ≤ k.code.toNat := by
  cases h <;> decide

/-- `x` completes or raises a fault of an effect. -/
def RaisesEffectFaults {α : Type} (x : Except FaultKind α) : Prop := ∀ k, x = .error k → k.OfEffect

namespace RaisesEffectFaults

theorem ok {α : Type} (v : α) : RaisesEffectFaults (.ok v) := nofun

theorem error {α : Type} {k : FaultKind} (hk : k.OfEffect) : RaisesEffectFaults (.error k : Except FaultKind α) := by
  rintro _ ⟨⟩
  exact hk

theorem bind {α β : Type} {x : Except FaultKind α} {f : α → Except FaultKind β} (hx : RaisesEffectFaults x)
    (hf : ∀ v, RaisesEffectFaults (f v)) : RaisesEffectFaults (x >>= f) := by
  cases x with
  | error k => exact error (hx k rfl)
  | ok v => exact hf v

theorem pop (t : State) : RaisesEffectFaults t.pop := by
  rcases t.pop_cases with ⟨_, hp⟩ | ⟨_, _, _, hp⟩ <;> rw [hp]
  · exact error .stackUnderflow
  · exact ok _

theorem push (t : State) (v : Word) : RaisesEffectFaults (t.push v) := by
  rcases t.push_cases v with ⟨_, hp⟩ | ⟨_, hp⟩ <;> rw [hp]
  · exact error .stackOverflow
  · exact ok _

theorem memRead (t : State) (addr : Nat) : RaisesEffectFaults (t.memRead addr) := by
  rcases t.memRead_cases addr with ⟨_, hp⟩ | ⟨_, hp⟩ <;> rw [hp]
  · exact error .stackUnderflow
  · exact ok _

theorem memWrite (t : State) (addr : Nat) (v : Word) : RaisesEffectFaults (t.memWrite addr v) := by
  rcases t.memWrite_cases addr v with ⟨_, hp⟩ | ⟨_, hp⟩ <;> rw [hp]
  · exact error .stackUnderflow
  · exact ok _

theorem gridRead (t : State) (x y : Word) : RaisesEffectFaults (t.gridRead x y) := by
  rcases t.gridRead_cases x y with ⟨_, hp⟩ | ⟨_, hp⟩ <;> rw [hp]
  · exact error .gridOutOfBounds
  · exact ok _

theorem gridWrite (t : State) (x y v : Word) : RaisesEffectFaults (t.gridWrite x y v) := by
  rcases t.gridWrite_cases x y v with ⟨_, hp⟩ | ⟨_, hp⟩ <;> rw [hp]
  · exact error .gridOutOfBounds
  · exact ok _

theorem operand (f : Field) (t : State) : RaisesEffectFaults (operand f t) := by
  cases hd : t.config.dialect with
  | stack => rw [operand_stack hd]; exact pop t
  | register => rw [operand_register hd]; exact ok _

theorem operandPair (a b : Field) (t : State) : RaisesEffectFaults (operandPair a b t) := by
  cases hd : t.config.dialect with
  | stack => rw [Machine.operandPair, hd]; exact (pop t).bind fun _ => (pop _).bind fun _ => ok _
  | register => rw [operandPair_register hd]; exact ok _

theorem deliver (a : Field) (v : Word) (t : State) : RaisesEffectFaults (deliver a v t) := by
  cases hd : t.config.dialect with
  | stack => rw [deliver_stack hd]; exact push t v
  | register => rw [deliver_register hd]; exact ok _

theorem binaryEffect (f : Word → Word → Word) (a b : Field) (t : State) : RaisesEffectFaults (binaryEffect f a b t) :=
  (operandPair a b t).bind fun _ => deliver _ _ _

/-- Every instruction's effect completes or raises a fault of the stack or of the grids. -/
theorem effectOf (i : Instr) (t : State) : RaisesEffectFaults (effectOf i t) := by
  cases i with
  | const a b => exact deliver a b t
  | push a b => exact push t _
  | pop a b => exact (pop t).bind fun _ => ok _
  | load a b => exact (memRead t _).bind fun _ => ok _
  | store a b => exact memWrite t _ _
  | copy a b => exact ok _
  | jumpif a b => exact (operand b t).bind fun _ => ok _
  | not a b => exact (operand a t).bind fun _ => deliver _ _ _
  | add a b | mult a b | and a b | or a b | xor a b | lshift a b | rshift a b | equals a b | lessthan a b =>
    exact binaryEffect _ a b t
  | input a b => exact (operandPair a b t).bind fun _ => (gridRead _ _ _).bind fun _ => ok _
  | output a b => exact (operandPair a b t).bind fun _ => gridWrite _ _ _ _

end RaisesEffectFaults

/-! ### The fault record (10_state R33; 60_exceptions R205) -/

/-- No operation writes the fault record, so each keeps what is said of the record alone. -/
theorem State.record_keptByOps (Q : Bool → BitVec 3 → Prop) : KeptByOps fun t => Q t.faulted t.faultCode where
  setReg _ _ ht := ht
  push ht h := by obtain ⟨_, rfl⟩ := State.of_push_eq_ok h; exact ht
  pop ht h := by obtain ⟨_, _, rfl⟩ := State.of_pop_eq_ok h; exact ht
  memWrite ht h := by cases State.of_memWrite_eq_ok h; exact ht
  gridWrite ht h := by obtain ⟨_, rfl⟩ := State.of_gridWrite_eq_ok h; exact ht

/-- A completed effect leaves the fault code. -/
theorem faultCode_of_effectOf {i : Instr} {t u : State} (h : effectOf i t = .ok u) : u.faultCode = t.faultCode :=
  (State.record_keptByOps fun _ code => code = t.faultCode).effectOf rfl h

/-- The fault code after an instruction: that before it, UnrecognizedInstruction's or RegisterOutOfRange's where the
decode checks raise them, or that of a fault of the effect. -/
theorem faultCode_of_exec {i : Instr} {s t : State} (h : exec i s = .next t) :
    t.faultCode = s.faultCode ∨ (decodable s.config i.opcode = false ∧ t.faultCode = 2) ∨
      (registersInRange s.config i = false ∧ t.faultCode = 3) ∨ 4 ≤ t.faultCode.toNat := by
  rcases exec_cases i s with ⟨hd, hk⟩ | ⟨_, hr, hk⟩ | ⟨_, k, he, hk⟩ | ⟨_, u, hu, hk⟩ <;> rw [hk] at h <;> cases h
  · exact .inr (.inl ⟨hd, rfl⟩)
  · exact .inr (.inr (.inl ⟨hr, rfl⟩))
  · exact .inr (.inr (.inr (RaisesEffectFaults.effectOf i _ k he).four_le_code))
  · exact .inl (faultCode_of_effectOf (t := s.advancePc) hu)

/-- No instruction raises HaltedMachine. -/
theorem faultCode_ne_one_of_exec {i : Instr} {s t : State} (hc : s.faultCode = 0) (h : exec i s = .next t) :
    t.faultCode ≠ 1 := by
  rcases faultCode_of_exec h with he | ⟨_, he⟩ | ⟨_, he⟩ | hle
  · rw [he, hc]; decide
  · rw [he]; decide
  · rw [he]; decide
  · intro he; simp [he] at hle

/-- RegisterOutOfRange is raised by the register check alone. -/
theorem faultCode_ne_three_of_exec {i : Instr} {s t : State} (hr : registersInRange s.config i = true)
    (hc : s.faultCode = 0) (h : exec i s = .next t) : t.faultCode ≠ 3 := by
  rcases faultCode_of_exec h with he | ⟨_, he⟩ | ⟨hr', _⟩ | hle
  · rw [he, hc]; decide
  · rw [he]; decide
  · simp [hr] at hr'
  · intro he; simp [he] at hle

/-- Fault entry leaves a legal record. -/
theorem State.recordLegal_takeFault (s : State) (k : FaultKind) : (s.takeFault k).recordLegal := by
  obtain ⟨hpos, hle⟩ := k.code_range
  have hne : k.code ≠ 0 := fun h0 => by simp [h0] at hpos
  exact ⟨⟨nofun, fun h0 => absurd h0 hne⟩, hle⟩

/-- A legal record is clear, or shows a fault with one of the six codes. -/
theorem State.recordLegal.clear_or_fault {t : State} (h : t.recordLegal) :
    (t.faulted = false ∧ t.faultCode = 0) ∨ (t.faulted = true ∧ 1 ≤ t.faultCode.toNat ∧ t.faultCode.toNat ≤ 6) := by
  obtain ⟨hiff, hle⟩ := h
  cases hf : t.faulted with
  | false => exact .inl ⟨rfl, hiff.1 hf⟩
  | true =>
    have hne : t.faultCode ≠ 0 := fun h0 => by simp [hiff.2 h0] at hf
    have hpos : t.faultCode.toNat ≠ 0 := fun h0 => hne (BitVec.eq_of_toNat_eq h0)
    exact .inr ⟨rfl, Nat.one_le_iff_ne_zero.2 hpos, hle⟩

/-- A step keeps a legal record. -/
theorem State.recordLegal.of_step {s t : State} (hs : s.recordLegal) (h : step s = .next t) : t.recordLegal :=
  (State.record_keptByOps fun faulted code => (faulted = false ↔ code = 0) ∧ code.toNat ≤ 6).step
    (fun k _ => State.recordLegal_takeFault _ k) id hs h

/-! ### Totality (40_step_cycle R100; 90_conflicts C7) -/

/-- Every instruction answers a next state. -/
theorem exists_exec_eq_next (i : Instr) (s : State) : ∃ t, exec i s = .next t := by
  rcases exec_cases i s with ⟨_, hk⟩ | ⟨_, _, hk⟩ | ⟨_, _, _, hk⟩ | ⟨_, _, _, hk⟩ <;> exact ⟨_, hk⟩

/-- Every step answers a next state. -/
theorem exists_step_eq_next (s : State) : ∃ t, step s = .next t := by
  rcases step_cases s with ⟨_, hk⟩ | ⟨_, _, _, hk⟩ | ⟨_, i, _, hk⟩ <;> rw [hk]
  · exact ⟨_, rfl⟩
  · exact ⟨_, rfl⟩
  · exact exists_exec_eq_next i _

end Sys2Proof.Machine

namespace Sys2Proof.Proofs

open Sys2Proof.Machine

/-- Settles O22: the register check of a decodable instruction is the bound on its register-role fields, and no other
part of the instruction raises code 3. -/
theorem registerFieldsAreChecked : Obligations.RegisterFieldsAreChecked := by
  intro s i hlegal
  have hd : decodable s.config i.opcode = true := by simpa [illegalOp_encode_iff] using hlegal
  refine ⟨?_, fun hfields hc t h => ?_⟩
  · rintro ⟨f, hf, hbig⟩
    have hr : registersInRange s.config i ≠ true := fun hr =>
      absurd ((registersInRange_iff s.config i).1 hr f hf) (Nat.not_le.2 hbig)
    rw [exec_eq_perform]
    exact perform_outOfRange hd (Bool.eq_false_of_not_eq_true hr) _
  · exact faultCode_ne_three_of_exec ((registersInRange_iff s.config i).2 hfields) hc h

/-- Settles O24: every arm of the step answers a next state, and a clear fault record is a legal one, which a step
keeps. -/
theorem stepIsTotal : Obligations.StepIsTotal := by
  intro s
  obtain ⟨t, h⟩ := exists_step_eq_next s
  refine ⟨t, h, fun hf hc => ?_⟩
  have hs : s.recordLegal := ⟨by simp [hf, hc], by simp [hc]⟩
  exact (hs.of_step h).clear_or_fault

end Sys2Proof.Proofs
end

section
/-! PROOF. The front of the step (40_step_cycle R100 to R104): which word a step runs, fetched, injected or placed at the
PC, and which step raises HaltedMachine. -/

namespace Sys2Proof.Machine

variable {s : State} {w : InstrWord} {i : Instr} {k : FaultKind}

/-! ### The word of a step -/

/-- A supplied word stands in place of the halt test and the fetch (R103). -/
theorem nextWord_of_supplied (h : s.supplied = some w) : nextWord s = .ok w := by
  rw [nextWord, h]

/-- The fetch of a runnable core (R102). -/
theorem nextWord_of_getElem? (h : s.supplied = none) (hw : s.prog[s.pc.toNat]? = some w) : nextWord s = .ok w := by
  simp only [nextWord, h, hw]

/-- The halt test (R104). -/
theorem nextWord_of_length_le (h : s.supplied = none) (hpc : s.prog.length ≤ s.pc.toNat) :
    nextWord s = .error .haltedMachine := by
  simp only [nextWord, h, List.getElem?_eq_none hpc]

theorem nextInstr_of_nextWord_error (h : nextWord s = .error k) : nextInstr s = .error k := by
  rw [nextInstr, h]; rfl

theorem nextInstr_of_decode (h : nextWord s = .ok w) (hd : decode w = .ok i) : nextInstr s = .ok i := by
  simp only [nextInstr, h, bind, Except.bind, hd]

theorem nextInstr_of_decode_error {e : DecodeRefusal} (h : nextWord s = .ok w) (hd : decode w = .error e) :
    nextInstr s = .error .unrecognizedInstruction := by
  simp only [nextInstr, h, bind, Except.bind, hd]

/-! ### The step of a word -/

theorem step_of_faulted (hf : s.faulted = true) : step s = .next s.takeRequest := if_pos hf

theorem step_of_nextInstr_ok (hf : s.faulted = false) (h : nextInstr s = .ok i) : step s = exec i s.takeRequest := by
  rw [step, if_neg (by simp [hf]), h]

theorem step_of_nextInstr_error (hf : s.faulted = false) (h : nextInstr s = .error k) :
    step s = .next (s.takeRequest.takeFault k) := by
  rw [step, if_neg (by simp [hf]), h]

/-- A step that has a word to run raises no HaltedMachine, whatever the word (60_exceptions R201). -/
theorem faultCode_ne_one_of_step {t : State} (hf : s.faulted = false) (hc : s.faultCode = 0) (hw : nextWord s = .ok w)
    (h : step s = .next t) : t.faultCode ≠ 1 := by
  cases hd : decode w with
  | error e =>
    rw [step_of_nextInstr_error hf (nextInstr_of_decode_error hw hd)] at h
    cases h
    rw [State.takeFault_faultCode]
    decide
  | ok i =>
    rw [step_of_nextInstr_ok hf (nextInstr_of_decode hw hd)] at h
    exact faultCode_ne_one_of_exec (s := s.takeRequest) hc h

/-! ### Injection (R103) -/

/-- Injecting a word and taking the request gives back a state that had nothing supplied. -/
theorem State.takeRequest_supply (h : s.supplied = none) (inj : Option InstrWord) :
    ({ s with supplied := inj } : State).takeRequest = s :=
  State.takeRequest_of_none h

/-- The next word of a step with `w` injected is `w`. -/
theorem nextWord_supply (s : State) (w : InstrWord) : nextWord { s with supplied := some w } = .ok w :=
  nextWord_of_supplied rfl

theorem stepWith_of_faulted (hs : s.supplied = none) (hf : s.faulted = true) : stepWith w s = .next s := by
  rw [stepWith, step_of_faulted (by exact hf), State.takeRequest_supply hs]

theorem stepWith_of_decode (hs : s.supplied = none) (hf : s.faulted = false) (hd : decode w = .ok i) :
    stepWith w s = exec i s := by
  rw [stepWith, step_of_nextInstr_ok (by exact hf) (nextInstr_of_decode (nextWord_supply s w) hd),
    State.takeRequest_supply hs]

theorem stepWith_of_decode_error {e : DecodeRefusal} (hs : s.supplied = none) (hf : s.faulted = false)
    (hd : decode w = .error e) : stepWith w s = .next (s.takeFault .unrecognizedInstruction) := by
  rw [stepWith, step_of_nextInstr_error (by exact hf) (nextInstr_of_decode_error (nextWord_supply s w) hd),
    State.takeRequest_supply hs]

/-! ### Placement at the PC (log entry 16) -/

/-- The placed word stands at its index, inside the program store or past its end. -/
theorem placeWord_getElem? (prog : List InstrWord) (k : Nat) (w : InstrWord) : (placeWord prog k w)[k]? = some w := by
  rw [placeWord]
  split
  · next h => exact List.getElem?_set_self h
  · next h =>
    have hlen : (prog ++ List.replicate (k - prog.length) 0).length = k := by simp; omega
    exact (congrArg _ hlen.symm).trans List.getElem?_concat_length

/-- The next word of a state with `w` placed at the PC is `w`. -/
theorem nextWord_withWordAtPc (s : State) (w : InstrWord) : nextWord (s.withWordAtPc w) = .ok w :=
  nextWord_of_getElem? rfl (placeWord_getElem? s.prog s.pc.toNat w)

/-- A table row's bits that name an instruction are a word that decodes to it. -/
theorem decode_tableWord {nbits n : Nat} (h : decodeTableWord nbits n = some i) : decode (tableWord nbits n) = .ok i := by
  rw [decodeTableWord] at h
  split at h
  · split at h <;> cases h
    assumption
  · cases h

end Sys2Proof.Machine

namespace Sys2Proof.Proofs

open Sys2Proof.Machine

/-- Settles O18: the next word of the step is the fetched or the supplied one, and the step of a word that decodes is
its instruction's. -/
theorem stepRunsDecodedInstruction : Obligations.StepRunsDecodedInstruction := by
  intro s i hf
  refine ⟨fun hs hpc hd => ?_, fun w hs hd => ?_⟩
  · have hw : nextWord s = .ok s.prog[s.regs[0].toNat] := nextWord_of_getElem? hs (List.getElem?_eq_getElem hpc)
    rw [step_of_nextInstr_ok hf (nextInstr_of_decode hw hd), State.takeRequest_of_none hs]
  · exact step_of_nextInstr_ok hf (nextInstr_of_decode (nextWord_of_supplied hs) hd)

/-- Settles O19: the next word of a step with `w` injected is `w`, and what the step leaves has consumed it. -/
theorem injectedInstructionRuns : Obligations.InjectedInstructionRuns := by
  intro s w hs
  refine ⟨fun hf i hd => stepWith_of_decode hs hf hd, fun hf e hd => stepWith_of_decode_error hs hf hd,
    fun hf hc t h => ?_, fun hf => stepWith_of_faulted hs hf⟩
  exact faultCode_ne_one_of_step (s := { s with supplied := some w }) hf hc (nextWord_supply s w) h

/-- Settles O20: the halt test raises HaltedMachine at the end of the program, and below it there is a word to run. -/
theorem haltedStepRaisesHaltedMachine : Obligations.HaltedStepRaisesHaltedMachine := by
  intro s hf hs
  refine ⟨fun hpc => ?_, fun hpc hc t h => ?_⟩
  · have hn : nextInstr s = .error .haltedMachine := nextInstr_of_nextWord_error (nextWord_of_length_le hs hpc)
    rw [step_of_nextInstr_error hf hn, State.takeRequest_of_none hs]
    rfl
  · exact faultCode_ne_one_of_step hf hc (nextWord_of_getElem? hs (List.getElem?_eq_getElem hpc)) h

/-- Settles O46: the placed word is the one fetched at the PC, and the placement leaves nothing supplied and no fault
record. -/
theorem placedWordRunsNext : Obligations.PlacedWordRunsNext := by
  intro s w i h
  have hn : nextInstr (s.withFetchWord 40 w) = .ok i :=
    nextInstr_of_decode (nextWord_withWordAtPc s (tableWord 40 w)) (decode_tableWord h)
  exact step_of_nextInstr_ok rfl hn

end Sys2Proof.Proofs
end

section
/-! PROOF. Where a step leads (40_step_cycle R109, R111, R114): the PC after a completed instruction, and the ends of a
run. -/

namespace Sys2Proof.Machine

/-! ### The PC (R109, R111) -/

/-- The PC is left where the instruction has no destination register 0 and does not jump. -/
theorem Leaves.pc_eq {i : Instr} {t u : State} (h : Leaves i t u)
    (hdest : ∀ f ∈ Spec.destinations t.config.dialect i, regIndex f ≠ 0) (hjump : i.opcode ≠ .jumpif) : u.pc = t.pc := by
  cases h with
  | stack | output => rfl
  | destination _ _ f v hf => exact State.reg_setReg_ne _ (hdest f hf) v
  | jump _ _ _ hi => exact absurd hi hjump
  | input _ _ v => exact State.reg_setReg_ne _ (by decide) v

/-! ### The ends of a run (R114) -/

theorem State.runEnd_eq_halted_iff (s : State) :
    s.runEnd = some .halted ↔ s.prog.length ≤ s.pc.toNat ∧ s.faulted = false := by
  cases hf : s.faulted <;> simp [State.runEnd, State.runnable, hf]

theorem State.runEnd_eq_faulted_iff (s : State) : s.runEnd = some .faulted ↔ s.faulted = true := by
  cases hf : s.faulted <;> simp [State.runEnd, hf]

/-- A run goes on from the next state of its first step. -/
theorem run_succ_of_step (M : Host.Core) {k : Nat} {s u : M.State} (h : M.step s = .next u) :
    M.run (k + 1) s = M.run k u := by
  rw [Host.Core.run, h]

/-- A faulted core stays faulted, whatever number of steps is requested (60_exceptions R206). -/
theorem faulted_of_run {s t : State} {k : Nat} (hf : s.faulted = true) (h : Sys2Proof.core.run k s = .next t) :
    t.faulted = true := by
  induction k generalizing s with
  | zero => cases h; exact hf
  | succ k ih =>
    exact ih (s := s.takeRequest) hf ((run_succ_of_step Sys2Proof.core (step_of_faulted hf)).symm.trans h)

end Sys2Proof.Machine

namespace Sys2Proof.Proofs

open Sys2Proof.Machine

/-- Settles O25: a completed instruction starts at the incremented PC, and a destination field that names register 0 is
the number 0. -/
theorem pcAdvancesUnlessWritten : Obligations.PcAdvancesUnlessWritten := by
  intro s t i _ h ht hdest hjump
  obtain ⟨k, rfl⟩ | ⟨hw, hu⟩ := of_exec_eq_next h
  · exact absurd ht (by simp)
  · have hne : ∀ f ∈ Spec.destinations s.config.dialect i, regIndex f ≠ 0 := fun f hf hr =>
      hdest (eq_ofNat_of_regIndex (toNat_le_of_mem_destinations hw hf) hr ▸ hf)
    have hpc : t.pc = s.pc + 1 := ((Leaves.of_effectOf hu).pc_eq hne hjump).trans s.pc_advancePc
    calc t.pc.toNat = (s.pc + 1).toNat := by rw [hpc]
      _ = (s.pc.toNat + 1) % 65536 := BitVec.toNat_add _ _

/-- Settles O44: the ends read the halt test and the fault record, an end shown is what running forever excludes, and a
faulted core stays faulted. -/
theorem runEndsAreDistinct : Obligations.RunEndsAreDistinct := by
  refine ⟨fun s => ⟨s.runEnd_eq_halted_iff, s.runEnd_eq_faulted_iff⟩, fun s t k h hend hforever => ?_,
    fun s t k hs h => ?_⟩
  · exact hend (hforever k t h)
  · rw [State.runEnd_eq_faulted_iff] at hs ⊢
    exact faulted_of_run hs h

end Sys2Proof.Proofs
end

section
/-! PROOF. Data movement (41_data_movement R120 to R125): the outcome of an instruction from its effect, the outcome of
each stack access from its guard, and from these the whole next state of CONST, PUSH, POP, LOAD, STORE and COPY. -/

namespace Sys2Proof.Machine

open Sys2Proof.Spec

/-! ### Registers at the incremented PC (40_step_cycle R109, R111) -/

/-- Reading a checked register field reads the register of its number. -/
theorem State.reg_regIndex (s : State) {f : Field} (hf : f.toNat < 8) : s.reg (regIndex f) = s.regs[f.toNat] := by
  simp [State.reg, regIndex_val (Nat.le_of_lt_succ hf)]

/-- Writing a checked register field writes the register of its number. -/
theorem State.setReg_regIndex (s : State) {f : Field} (hf : f.toNat < 8) (v : Word) :
    s.setReg (regIndex f) v = { s with regs := s.regs.set f.toNat v } := by
  simp [State.setReg, regIndex_val (Nat.le_of_lt_succ hf)]

theorem State.reg_advancePc_regIndex (s : State) {f : Field} (hf : f.toNat < 8) :
    s.advancePc.reg (regIndex f) = (incremented s)[f.toNat] := s.advancePc.reg_regIndex hf

theorem State.setReg_advancePc_regIndex (s : State) {f : Field} (hf : f.toNat < 8) (v : Word) :
    s.advancePc.setReg (regIndex f) v = { s with regs := (incremented s).set f.toNat v } :=
  s.advancePc.setReg_regIndex hf v

/-- The increment leaves every register but the PC. -/
theorem incremented_getElem_of_ne_zero (s : State) {f : Field} (hf : f.toNat < 8) (h : f ≠ 0) :
    (incremented s)[f.toNat] = s.regs[f.toNat] :=
  Vector.getElem_set_ne _ _ fun h0 => h (BitVec.eq_of_toNat_eq h0.symm)

/-- The address of LOAD and STORE is the exact sum of the incremented registers (20_memory R54). -/
theorem stackAddress_advancePc (s : State) {b : Field} (hb : b.toNat < 8) :
    stackAddress b s.advancePc = (incremented s)[1].toNat + (incremented s)[b.toNat].toNat := by
  rw [stackAddress, s.reg_advancePc_regIndex hb]
  rfl

/-! ### The outcome of each stack access from its guard (20_memory R55, R57) -/

theorem State.push_of_room (t : State) (h : t.config.stackCapacity ≠ some t.stack.length) (v : Word) :
    t.push v = .ok { t with stack := t.stack ++ [v], tos := t.tos + 1 } := if_neg h

theorem State.push_of_full (t : State) (h : t.config.stackCapacity = some t.stack.length) (v : Word) :
    t.push v = .error .stackOverflow := if_pos h

theorem State.memRead_of_lt (t : State) {addr : Nat} (h : addr < t.stack.length) :
    t.memRead addr = .ok t.stack[addr] := by
  rw [State.memRead, List.getElem?_eq_getElem h]

theorem State.memRead_of_le (t : State) {addr : Nat} (h : t.stack.length ≤ addr) :
    t.memRead addr = .error .stackUnderflow := by
  rw [State.memRead, List.getElem?_eq_none h]

theorem State.memWrite_of_lt (t : State) {addr : Nat} (h : addr < t.stack.length) (v : Word) :
    t.memWrite addr v = .ok { t with stack := t.stack.set addr v } := if_pos h

theorem State.memWrite_of_le (t : State) {addr : Nat} (h : t.stack.length ≤ addr) (v : Word) :
    t.memWrite addr v = .error .stackUnderflow := if_neg (Nat.not_lt.2 h)

/-! ### The outcome of an instruction from its effect (40_step_cycle R105 to R112) -/

section

variable {i : Instr} {s t : State}

theorem exec_of_effectOf_ok (hb : i.fieldBounds s.config) (h : effectOf i s.advancePc = .ok t) :
    exec i s = .next t := by
  rw [exec_eq_perform, perform_wellFormed ((wellFormed_iff _ _).2 hb), h]
  rfl

/-- A fault of the effect leaves the state before the instruction with the fault record written. -/
theorem exec_of_effectOf_error {k : FaultKind} (hb : i.fieldBounds s.config) (h : effectOf i s.advancePc = .error k) :
    exec i s = .next (recorded s k.code) := by
  rw [exec_eq_perform, perform_wellFormed ((wellFormed_iff _ _).2 hb), h]
  rfl

/-- Every opcode but XOR is available, so that a bound of its fields that fails is a register out of range. -/
theorem exec_of_not_fieldBounds (hop : i.opcode ≠ .xor) (hb : ¬ i.fieldBounds s.config) :
    exec i s = .next (recorded s 3) := by
  have hd : decodable s.config i.opcode = true :=
    Bool.eq_true_of_not_eq_false fun hf => hop ((decodable_eq_false_iff _ _).1 hf).1
  have hr : registersInRange s.config i ≠ true := fun hr =>
    hb ((wellFormed_iff _ _).1 (by rw [Instr.wellFormed, hd, hr, Bool.true_and]))
  rw [exec_eq_perform, perform_outOfRange hd (Bool.eq_false_of_not_eq_true hr)]
  rfl

end

/-- Two register-role fields, one of them above 7, are not both in the range of 40_step_cycle R107. -/
theorem not_both_le_of_outOfRange {a b : Field} (h : 8 ≤ a.toNat ∨ 8 ≤ b.toNat) :
    ¬ (a.toNat ≤ 7 ∧ b.toNat ≤ 7) := by
  omega

/-! ### PUSH and POP (41_data_movement R121, R122) -/

theorem exec_push_of_room {s : State} {a : Field} (b : Field) (ha : a.toNat < 8)
    (h : s.config.stackCapacity ≠ some s.stack.length) :
    exec (.push a b) s = .next { s with
      regs := incremented s
      stack := s.stack ++ [(incremented s)[a.toNat]]
      tos := s.tos + 1 } := by
  refine exec_of_effectOf_ok (Nat.le_of_lt_succ ha) ?_
  rw [effectOf, s.advancePc.push_of_room h, s.reg_advancePc_regIndex ha]
  rfl

theorem exec_pop_of_append {s : State} {a : Field} (b : Field) (ha : a.toNat < 8) {base : List Word} {v : Word}
    (h : s.stack = base ++ [v]) :
    exec (.pop a b) s = .next { s with
      regs := (incremented s).set a.toNat v
      stack := base
      tos := s.tos - 1 } := by
  refine exec_of_effectOf_ok (Nat.le_of_lt_succ ha) ?_
  rw [effectOf, State.pop_append (s := s.advancePc) h]
  exact congrArg Except.ok (State.setReg_regIndex _ ha v)

/-! ### COPY (41_data_movement R125) -/

theorem exec_copy_of_inRange (s : State) {a b : Field} (ha : a.toNat < 8) (hb : b.toNat < 8) :
    exec (.copy a b) s = .next { s with regs := (incremented s).set a.toNat (incremented s)[b.toNat] } := by
  refine exec_of_effectOf_ok ⟨Nat.le_of_lt_succ ha, Nat.le_of_lt_succ hb⟩ ?_
  rw [effectOf, s.reg_advancePc_regIndex hb, s.setReg_advancePc_regIndex ha]

/-! ### The immediate of CONST (41_data_movement R120) -/

theorem loadSecondField_const (k : Int) : loadSecondField .const k = BitVec.ofNat 16 (k % 65536).toNat := by
  have hk := toNat_loadSecondField_const k
  apply BitVec.eq_of_toNat_eq
  rw [BitVec.toNat_ofNat]
  omega

end Sys2Proof.Machine

namespace Sys2Proof.Proofs

open Sys2Proof.Machine Sys2Proof.Spec

/-- Settles O1: the result of CONST is delivered as its dialect says, a push or a register write. -/
theorem constLoadsItsImmediate : Obligations.ConstLoadsItsImmediate := by
  refine ⟨fun _ _ => rfl, fun x k => ⟨loadField x, ?_⟩, fun s a b => ⟨fun hd => ?_, fun hd => ?_⟩⟩
  · rw [decode_loadTriple_some, loadSecondField_const]
    rfl
  · have hb : (Instr.const a b).fieldBounds s.config := fun hr => absurd (hd.symm.trans hr) (by decide)
    have he : effectOf (.const a b) s.advancePc = s.advancePc.push b := deliver_stack (t := s.advancePc) hd a b
    exact ⟨fun hroom => exec_of_effectOf_ok hb (he.trans (s.advancePc.push_of_room hroom b)),
      fun hfull => exec_of_effectOf_error hb (he.trans (s.advancePc.push_of_full hfull b))⟩
  · refine ⟨fun ha => exec_of_effectOf_ok (fun _ => Nat.le_of_lt_succ ha) ?_,
      fun ha => exec_of_not_fieldBounds nofun fun hb => absurd (hb hd) (Nat.not_le.2 ha)⟩
    rw [effectOf, deliver_register (t := s.advancePc) hd, s.setReg_advancePc_regIndex ha]

/-- Settles O2: what PUSH appends is the newest element, so a POP takes it off again. -/
theorem pushAppendsRegister : Obligations.PushAppendsRegister := by
  refine ⟨fun _ _ => rfl, fun s a b => ⟨fun ha => ⟨exec_push_of_room b ha, fun hfull => ?_⟩, fun ha => ?_⟩,
    fun s t a b a' b' ha ha' hne _ hroom h => ?_⟩
  · exact exec_of_effectOf_error (i := .push a b) (Nat.le_of_lt_succ ha) (s.advancePc.push_of_full hfull _)
  · exact exec_of_not_fieldBounds nofun (Nat.not_le.2 ha)
  · cases (exec_push_of_room b ha hroom).symm.trans h
    exact ⟨_, exec_pop_of_append b' ha' rfl,
      (Vector.getElem_set_self _).trans (incremented_getElem_of_ne_zero s ha hne), rfl⟩

/-- Settles O3: POP writes the popped element into the register, and `tos` counts the stack that is left. -/
theorem popMovesTopToRegister : Obligations.PopMovesTopToRegister := by
  refine ⟨fun _ _ => rfl, fun s a b htos => ⟨fun ha => ⟨fun base v hs => ?_, fun hs => ?_⟩, fun ha => ?_⟩⟩
  · have hcount : s.tos - 1 = base.length := by rw [htos, hs, List.length_append]; rfl
    rw [exec_pop_of_append b ha hs, hcount]
  · refine exec_of_effectOf_error (Nat.le_of_lt_succ ha) (k := .stackUnderflow) ?_
    rw [effectOf, State.pop_empty (s := s.advancePc) hs]
    rfl
  · exact exec_of_not_fieldBounds nofun (Nat.not_le.2 ha)

/-- Settles O4: LOAD is an indexed read at the exact sum, delivered into the register. -/
theorem loadReadsBaseRelative : Obligations.LoadReadsBaseRelative := by
  refine ⟨fun _ _ => rfl, fun s a b => ⟨fun ha hb addr haddr => ?_, fun h =>
    exec_of_not_fieldBounds nofun (not_both_le_of_outOfRange h)⟩⟩
  have hbounds : a.toNat ≤ 7 ∧ b.toNat ≤ 7 := ⟨Nat.le_of_lt_succ ha, Nat.le_of_lt_succ hb⟩
  have hsum : stackAddress b s.advancePc = addr := (stackAddress_advancePc s hb).trans haddr.symm
  refine ⟨fun hlt => exec_of_effectOf_ok hbounds ?_,
    fun hle => exec_of_effectOf_error hbounds (k := .stackUnderflow) ?_⟩
  · rw [effectOf, hsum, s.advancePc.memRead_of_lt hlt]
    exact congrArg Except.ok (s.setReg_advancePc_regIndex ha _)
  · rw [effectOf, hsum, s.advancePc.memRead_of_le hle]
    rfl

/-- Settles O5: STORE is an indexed write at the exact sum of a register read at the incremented PC. -/
theorem storeWritesBaseRelative : Obligations.StoreWritesBaseRelative := by
  refine ⟨fun _ _ => rfl, fun s a b => ⟨fun ha hb addr haddr => ?_, fun h =>
    exec_of_not_fieldBounds nofun (not_both_le_of_outOfRange h)⟩⟩
  have hbounds : a.toNat ≤ 7 ∧ b.toNat ≤ 7 := ⟨Nat.le_of_lt_succ ha, Nat.le_of_lt_succ hb⟩
  have heffect : effectOf (.store a b) s.advancePc = s.advancePc.memWrite addr (incremented s)[a.toNat] := by
    rw [effectOf, stackAddress_advancePc s hb, ← haddr, s.reg_advancePc_regIndex ha]
  exact ⟨fun hlt => exec_of_effectOf_ok hbounds (heffect.trans (s.advancePc.memWrite_of_lt hlt _)),
    fun hle => exec_of_effectOf_error (i := .store a b) hbounds (heffect.trans (s.advancePc.memWrite_of_le hle _))⟩

/-- Settles O6: COPY is a register write of a register read, and writing a register its own value changes nothing. -/
theorem copyMovesRegister : Obligations.CopyMovesRegister := by
  refine ⟨fun _ _ => rfl, fun s a b => ⟨exec_copy_of_inRange s, fun ha => ?_, fun h =>
    exec_of_not_fieldBounds nofun (not_both_le_of_outOfRange h)⟩⟩
  rw [exec_copy_of_inRange s ha ha, Vector.set_getElem_self]

end Sys2Proof.Proofs
end

section
/-! PROOF. Control transfer (42_control R140): what JUMPIF does with the condition its dialect reads, where the jump is
taken and where it falls through, and from these its whole next state. -/

namespace Sys2Proof.Machine

open Sys2Proof.Spec

/-! ### The condition read at the incremented PC (40_step_cycle R108, R109) -/

section

variable {s u : State} {b : Field} {c : Word}

/-- Where `tos` counts the stack (10_state R28), it counts what a pop leaves. -/
theorem State.tos_sub_one_of_append (htos : s.tos = s.stack.length) {base : List Word} (h : s.stack = base ++ [c]) :
    s.tos - 1 = base.length := by
  rw [htos, h, List.length_append]
  rfl

theorem operand_advancePc_of_append (hd : s.config.dialect = .stack) {base : List Word} (h : s.stack = base ++ [c])
    (b : Field) :
    operand b s.advancePc = .ok (c, { s with regs := incremented s, stack := base, tos := s.tos - 1 }) :=
  (operand_stack (t := s.advancePc) hd b).trans (State.pop_append (s := s.advancePc) h)

theorem operand_advancePc_of_empty (hd : s.config.dialect = .stack) (h : s.stack = []) (b : Field) :
    operand b s.advancePc = .error .stackUnderflow :=
  (operand_stack (t := s.advancePc) hd b).trans (State.pop_empty (s := s.advancePc) h)

theorem operand_advancePc_register (hd : s.config.dialect = .register) (hb : b.toNat < 8) :
    operand b s.advancePc = .ok ((incremented s)[b.toNat], s.advancePc) := by
  rw [operand_register (t := s.advancePc) hd, s.reg_advancePc_regIndex hb]

/-! ### The outcome of JUMPIF from its condition (42_control R140) -/

variable {a : Field}

theorem effectOf_jumpif_of_operand {t : State} (h : operand b t = .ok (c, u)) :
    effectOf (.jumpif a b) t = .ok (if conditionZero c then u.setReg 0 (u.reg (regIndex a)) else u) := by
  rw [effectOf, h]
  rfl

/-- A condition of 0 takes the jump. The target is read after the condition, which leaves the registers. -/
theorem exec_jumpif_of_zero (hbounds : (Instr.jumpif a b).fieldBounds s.config) (ha : a.toNat < 8)
    (h : operand b s.advancePc = .ok (0, u)) :
    exec (.jumpif a b) s = .next { u with regs := u.regs.set 0 u.regs[a.toNat] } := by
  have heffect : effectOf (.jumpif a b) s.advancePc = .ok (u.setReg 0 (u.reg (regIndex a))) :=
    effectOf_jumpif_of_operand h
  rw [exec_of_effectOf_ok hbounds heffect, u.reg_regIndex ha]
  rfl

/-- Any other condition falls through to what reading it leaves. -/
theorem exec_jumpif_of_ne_zero (hbounds : (Instr.jumpif a b).fieldBounds s.config) (hc : c ≠ 0)
    (h : operand b s.advancePc = .ok (c, u)) : exec (.jumpif a b) s = .next u := by
  have hfalse : ¬ conditionZero c = true := fun hz => hc (eq_of_beq hz)
  exact exec_of_effectOf_ok hbounds ((effectOf_jumpif_of_operand h).trans (congrArg _ (if_neg hfalse)))

theorem exec_jumpif_of_operand_error {k : FaultKind} (hbounds : (Instr.jumpif a b).fieldBounds s.config)
    (h : operand b s.advancePc = .error k) : exec (.jumpif a b) s = .next (recorded s k.code) := by
  refine exec_of_effectOf_error hbounds ?_
  rw [effectOf, h]
  rfl

end

end Sys2Proof.Machine

namespace Sys2Proof.Proofs

open Sys2Proof.Machine Sys2Proof.Spec

/-- Settles O7: the condition is read as the dialect says and consumed either way, a 0 alone takes the jump, and the
target field is checked whether or not it is. -/
theorem jumpifJumpsOnZero : Obligations.JumpifJumpsOnZero := by
  refine ⟨fun _ _ => rfl, fun s a b hd htos => ⟨fun ha => ?_, fun ha => ?_⟩,
    fun s a b hd => ⟨fun ha hb => ?_, fun h => ?_⟩⟩
  · have hbounds : (Instr.jumpif a b).fieldBounds s.config :=
      ⟨Nat.le_of_lt_succ ha, fun hr => absurd (hd.symm.trans hr) (by decide)⟩
    refine ⟨fun base hs => ?_, fun base c hc hs => ?_, fun hs => ?_⟩
    · rw [exec_jumpif_of_zero hbounds ha (operand_advancePc_of_append hd hs b), State.tos_sub_one_of_append htos hs]
    · rw [exec_jumpif_of_ne_zero hbounds hc (operand_advancePc_of_append hd hs b), State.tos_sub_one_of_append htos hs]
    · exact exec_jumpif_of_operand_error hbounds (operand_advancePc_of_empty hd hs b)
  · exact exec_of_not_fieldBounds nofun fun hbounds => absurd hbounds.1 (Nat.not_le.2 ha)
  · have hbounds : (Instr.jumpif a b).fieldBounds s.config :=
      ⟨Nat.le_of_lt_succ ha, fun _ => Nat.le_of_lt_succ hb⟩
    have hcond := operand_advancePc_register hd hb
    exact ⟨fun hz => exec_jumpif_of_zero hbounds ha (hz ▸ hcond),
      fun hne => exec_jumpif_of_ne_zero hbounds hne hcond⟩
  · exact exec_of_not_fieldBounds nofun fun ⟨ha, hb⟩ => not_both_le_of_outOfRange h ⟨ha, hb hd⟩

end Sys2Proof.Proofs
end

section
/-! PROOF. Arithmetic, logic and comparison (43_alu R150 to R160): the value of each operator as a natural number, the
delivery of a result in place of popped operands, the rule of R150 proved once for every binary operator, and NOT. -/

namespace Sys2Proof.Machine

open Sys2Proof.Spec

/-! ### The operators over natural numbers (43_alu R151 to R160) -/

/-- A word whose value is known is the word of that value. -/
theorem eq_ofNat_of_toNat {v : Word} {n : Nat} (h : v.toNat = n) : v = BitVec.ofNat 16 n := by
  rw [← h, BitVec.ofNat_toNat, BitVec.setWidth_eq]

theorem toNat_aluNot (v : Word) : (aluNot v).toNat = 65535 - v.toNat := BitVec.toNat_not

section

variable (lhs rhs : Word)

theorem toNat_aluAdd : (aluAdd lhs rhs).toNat = (lhs.toNat + rhs.toNat) % 65536 := BitVec.toNat_add lhs rhs

theorem toNat_aluMult : (aluMult lhs rhs).toNat = (lhs.toNat * rhs.toNat) % 65536 := BitVec.toNat_mul lhs rhs

theorem toNat_aluAnd : (aluAnd lhs rhs).toNat = lhs.toNat &&& rhs.toNat := BitVec.toNat_and lhs rhs

theorem toNat_aluOr : (aluOr lhs rhs).toNat = lhs.toNat ||| rhs.toNat := BitVec.toNat_or lhs rhs

theorem toNat_aluXor : (aluXor lhs rhs).toNat = lhs.toNat ^^^ rhs.toNat := BitVec.toNat_xor lhs rhs

theorem toNat_aluLshift : (aluLshift lhs rhs).toNat = (lhs.toNat * 2 ^ rhs.toNat) % 65536 := by
  rw [aluLshift, BitVec.toNat_shiftLeft, Nat.shiftLeft_eq]

theorem toNat_aluRshift : (aluRshift lhs rhs).toNat = lhs.toNat / 2 ^ rhs.toNat := by
  rw [aluRshift, BitVec.toNat_ushiftRight, Nat.shiftRight_eq_div_pow]

/-- A comparison delivers 1 where it holds and 0 where it does not (00_scope R11). -/
theorem toNat_boolWord {p : Prop} [Decidable p] {c : Bool} (h : c = true ↔ p) :
    (boolWord c).toNat = if p then 1 else 0 := by
  by_cases hp : p
  · rw [if_pos hp, h.2 hp]; rfl
  · rw [if_neg hp, Bool.eq_false_of_not_eq_true (mt h.1 hp)]; rfl

theorem toNat_aluEquals : (aluEquals lhs rhs).toNat = if lhs.toNat = rhs.toNat then 1 else 0 :=
  toNat_boolWord (beq_iff_eq.trans BitVec.toNat_eq)

theorem toNat_aluLessthan : (aluLessthan lhs rhs).toNat = if lhs.toNat < rhs.toNat then 1 else 0 :=
  toNat_boolWord decide_eq_true_iff

end

/-! ### Operands and result (43_alu R150, R151) -/

section

variable {s t u : State} {a b : Field} {v lhs rhs : Word} {f : Word → Word → Word} {k : FaultKind}

theorem binaryEffect_of_operandPair (h : operandPair a b t = .ok (lhs, rhs, u)) :
    binaryEffect f a b t = deliver a (f lhs rhs) u := by
  rw [binaryEffect, h]
  rfl

theorem binaryEffect_of_operandPair_error (h : operandPair a b t = .error k) : binaryEffect f a b t = .error k := by
  rw [binaryEffect, h]
  rfl

theorem effectOf_not_of_operand (h : operand a t = .ok (v, u)) :
    effectOf (.not a b) t = deliver a (aluNot v) u := by
  rw [effectOf, h]
  rfl

theorem effectOf_not_of_operand_error (h : operand a t = .error k) : effectOf (.not a b) t = .error k := by
  rw [effectOf, h]
  rfl

/-- A sound stack that something was popped from is not full. -/
theorem stackCapacity_ne_of_popped (hs : StackSound s) {base popped : List Word} (h : s.stack = base ++ popped)
    (hne : popped ≠ []) : s.config.stackCapacity ≠ some base.length := by
  intro hfull
  have hle : s.stack.length ≤ base.length := hs.2 _ hfull
  have hpos : 0 < popped.length := List.length_pos_iff.2 hne
  rw [h, List.length_append] at hle
  omega

/-- The result takes the place of the `n + 1` operands popped for it, so that its push does not overflow. -/
theorem deliver_of_popped (hd : s.config.dialect = .stack) (hs : StackSound s) {base popped : List Word} {n : Nat}
    (h : s.stack = base ++ popped) (hn : popped.length = n + 1) (a : Field) (v : Word) :
    deliver a v { s with regs := incremented s, stack := base, tos := s.tos - (n + 1) } =
      .ok { s with regs := incremented s, stack := base ++ [v], tos := s.tos - n } := by
  have hroom : s.config.stackCapacity ≠ some base.length :=
    stackCapacity_ne_of_popped hs h (List.ne_nil_of_length_eq_add_one hn)
  have hcount : s.tos - (n + 1) + 1 = s.tos - n := by
    rw [hs.1, h, List.length_append, hn]
    omega
  rw [deliver_stack (by exact hd), State.push_of_room _ (by exact hroom), hcount]

theorem deliver_advancePc_register (hd : s.config.dialect = .register) (ha : a.toNat < 8) (v : Word) :
    deliver a v s.advancePc = .ok { s with regs := (incremented s).set a.toNat v } := by
  rw [deliver_register (t := s.advancePc) hd, s.setReg_advancePc_regIndex ha]

theorem operandPair_advancePc_register (hd : s.config.dialect = .register) (ha : a.toNat < 8) (hb : b.toNat < 8) :
    operandPair a b s.advancePc =
      .ok ((incremented s)[a.toNat], (incremented s)[b.toNat], s.advancePc) := by
  rw [operandPair_register (t := s.advancePc) hd, s.reg_advancePc_regIndex ha, s.reg_advancePc_regIndex hb]

end

/-! ### The decode faults of an instruction (40_step_cycle R105, R107) -/

section

variable {i : Instr} {s : State}

theorem exec_of_undecodable (h : decodable s.config i.opcode = false) : exec i s = .next (recorded s 2) :=
  (exec_eq_perform i s).trans (perform_undecodable h _)

/-- Where the opcode is available, a bound of the fields that fails is a register out of range. -/
theorem exec_of_decodable_of_not_fieldBounds (hd : decodable s.config i.opcode = true)
    (hb : ¬ i.fieldBounds s.config) : exec i s = .next (recorded s 3) := by
  have hr : registersInRange s.config i ≠ true := fun hr =>
    hb ((wellFormed_iff _ _).1 (by rw [Instr.wellFormed, hd, hr, Bool.true_and]))
  exact (exec_eq_perform i s).trans (perform_outOfRange hd (Bool.eq_false_of_not_eq_true hr) _)

end

/-! ### The binary operators (43_alu R150) -/

/-- `mk` is the instruction of a binary operator: its word has the opcode number `op`, it is available in the register
dialect under `available`, its fields hold registers in that dialect alone, and its effect is the operand scheme of
R150 with the function `f`. -/
structure BinaryOperator (mk : Field → Field → Instr) (op : BitVec 8) (available : Config → Bool)
    (f : Word → Word → Word) : Prop where
  encode_eq : ∀ a b, encode (mk a b) = formatT op a b
  decodable_register : ∀ c a b, c.dialect = .register → decodable c (mk a b).opcode = available c
  fieldBounds_iff : ∀ c a b,
    (mk a b).fieldBounds c ↔ (c.dialect = .register → available c = true ∧ a.toNat ≤ 7 ∧ b.toNat ≤ 7)
  effectOf_eq : ∀ a b t, effectOf (mk a b) t = binaryEffect f a b t

namespace BinaryOperator

variable {mk : Field → Field → Instr} {op : BitVec 8} {available : Config → Bool} {f : Word → Word → Word}

/-- Every binary operator but XOR is available in every configuration. -/
theorem of_ne_xor (hencode : ∀ a b, encode (mk a b) = formatT op a b) (hop : ∀ a b, (mk a b).opcode ≠ .xor)
    (hbounds : ∀ c a b, (mk a b).fieldBounds c ↔ (c.dialect = .register → a.toNat ≤ 7 ∧ b.toNat ≤ 7))
    (heffect : ∀ a b t, effectOf (mk a b) t = binaryEffect f a b t) : BinaryOperator mk op (fun _ => true) f where
  encode_eq := hencode
  decodable_register _ a b _ :=
    Bool.eq_true_of_not_eq_false fun hf => hop a b ((decodable_eq_false_iff _ _).1 hf).1
  fieldBounds_iff c a b := (hbounds c a b).trans (forall_congr' fun _ => (and_iff_right rfl).symm)
  effectOf_eq := heffect

theorem add : BinaryOperator .add 0x09 (fun _ => true) aluAdd :=
  of_ne_xor (fun _ _ => rfl) nofun (fun _ _ _ => .rfl) fun _ _ _ => rfl

theorem mult : BinaryOperator .mult 0x0A (fun _ => true) aluMult :=
  of_ne_xor (fun _ _ => rfl) nofun (fun _ _ _ => .rfl) fun _ _ _ => rfl

theorem and : BinaryOperator .and 0x0B (fun _ => true) aluAnd :=
  of_ne_xor (fun _ _ => rfl) nofun (fun _ _ _ => .rfl) fun _ _ _ => rfl

theorem or : BinaryOperator .or 0x0C (fun _ => true) aluOr :=
  of_ne_xor (fun _ _ => rfl) nofun (fun _ _ _ => .rfl) fun _ _ _ => rfl

theorem xor : BinaryOperator .xor 0x0D Config.xorInRegister aluXor where
  encode_eq _ _ := rfl
  decodable_register c _ _ hd := by simp only [decodable, Instr.opcode, hd]
  fieldBounds_iff _ _ _ := .rfl
  effectOf_eq _ _ _ := rfl

theorem lshift : BinaryOperator .lshift 0x0E (fun _ => true) aluLshift :=
  of_ne_xor (fun _ _ => rfl) nofun (fun _ _ _ => .rfl) fun _ _ _ => rfl

theorem rshift : BinaryOperator .rshift 0x0F (fun _ => true) aluRshift :=
  of_ne_xor (fun _ _ => rfl) nofun (fun _ _ _ => .rfl) fun _ _ _ => rfl

theorem equals : BinaryOperator .equals 0x10 (fun _ => true) aluEquals :=
  of_ne_xor (fun _ _ => rfl) nofun (fun _ _ _ => .rfl) fun _ _ _ => rfl

theorem lessthan : BinaryOperator .lessthan 0x11 (fun _ => true) aluLessthan :=
  of_ne_xor (fun _ _ => rfl) nofun (fun _ _ _ => .rfl) fun _ _ _ => rfl

section

variable {s : State} {a b : Field}

theorem fieldBounds_stack (h : BinaryOperator mk op available f) (hd : s.config.dialect = .stack) (a b : Field) :
    (mk a b).fieldBounds s.config :=
  (h.fieldBounds_iff _ _ _).2 fun hr => absurd (hd.symm.trans hr) (by decide)

theorem exec_stack_of_append (h : BinaryOperator mk op available f) (hd : s.config.dialect = .stack)
    (hs : StackSound s) {base : List Word} {lhs rhs : Word} (hstack : s.stack = base ++ [lhs, rhs]) (a b : Field) :
    exec (mk a b) s = .next { s with
      regs := incremented s
      stack := base ++ [f lhs rhs]
      tos := s.tos - 1 } := by
  refine exec_of_effectOf_ok (h.fieldBounds_stack hd a b) ?_
  rw [h.effectOf_eq, binaryEffect_of_operandPair (operandPair_stack (t := s.advancePc) hd hstack a b)]
  exact deliver_of_popped hd hs hstack rfl a _

theorem exec_stack_of_lt_two (h : BinaryOperator mk op available f) (hd : s.config.dialect = .stack)
    (hlt : s.stack.length < 2) (a b : Field) : exec (mk a b) s = .next (recorded s 4) := by
  refine exec_of_effectOf_error (h.fieldBounds_stack hd a b) (k := .stackUnderflow) ?_
  rw [h.effectOf_eq]
  exact binaryEffect_of_operandPair_error (operandPair_underflow (t := s.advancePc) hd hlt a b)

theorem exec_register_of_inRange (h : BinaryOperator mk op available f) (hd : s.config.dialect = .register)
    (hav : available s.config = true) (ha : a.toNat < 8) (hb : b.toNat < 8) :
    exec (mk a b) s = .next { s with
      regs := (incremented s).set a.toNat (f (incremented s)[a.toNat] (incremented s)[b.toNat]) } := by
  refine exec_of_effectOf_ok
    ((h.fieldBounds_iff _ _ _).2 fun _ => ⟨hav, Nat.le_of_lt_succ ha, Nat.le_of_lt_succ hb⟩) ?_
  rw [h.effectOf_eq, binaryEffect_of_operandPair (operandPair_advancePc_register hd ha hb)]
  exact deliver_advancePc_register hd ha _

theorem exec_register_of_outOfRange (h : BinaryOperator mk op available f) (hd : s.config.dialect = .register)
    (hav : available s.config = true) (hout : 8 ≤ a.toNat ∨ 8 ≤ b.toNat) :
    exec (mk a b) s = .next (recorded s 3) := by
  refine exec_of_decodable_of_not_fieldBounds ((h.decodable_register _ a b hd).trans hav) fun hbounds => ?_
  obtain ⟨-, hrange⟩ := (h.fieldBounds_iff _ a b).1 hbounds hd
  exact not_both_le_of_outOfRange hout hrange

end

/-- The rule of R150 holds of a binary operator whose function computes `g` on the values of its operands. -/
theorem binaryRule (h : BinaryOperator mk op available f) {g : Nat → Nat → Nat}
    (hg : ∀ lhs rhs : Word, (f lhs rhs).toNat = g lhs.toNat rhs.toNat) : BinaryRule mk op available g := by
  have hword (lhs rhs : Word) : BitVec.ofNat 16 (g lhs.toNat rhs.toNat) = f lhs rhs :=
    (eq_ofNat_of_toNat (hg lhs rhs)).symm
  refine ⟨h.encode_eq, fun s a b hd hs => ⟨fun base lhs rhs hstack => ?_, fun hlt => ?_⟩,
    fun s a b hd => ⟨fun hav => ⟨fun ha hb => ?_, fun hout => ?_⟩, fun hav => ?_⟩⟩
  · rw [hword]
    exact h.exec_stack_of_append hd hs hstack a b
  · exact h.exec_stack_of_lt_two hd hlt a b
  · rw [hword]
    exact h.exec_register_of_inRange hd hav ha hb
  · exact h.exec_register_of_outOfRange hd hav hout
  · exact exec_of_undecodable ((h.decodable_register _ a b hd).trans hav)

end BinaryOperator

/-! ### NOT (43_alu R151) -/

section

variable {s : State} {a : Field}

theorem fieldBounds_not_stack (hd : s.config.dialect = .stack) (a b : Field) :
    (Instr.not a b).fieldBounds s.config :=
  fun hr => absurd (hd.symm.trans hr) (by decide)

theorem exec_not_stack_of_append (hd : s.config.dialect = .stack) (hs : StackSound s) {base : List Word} {v : Word}
    (hstack : s.stack = base ++ [v]) (a b : Field) :
    exec (.not a b) s = .next { s with regs := incremented s, stack := base ++ [aluNot v] } := by
  refine exec_of_effectOf_ok (fieldBounds_not_stack hd a b) ?_
  rw [effectOf_not_of_operand (operand_advancePc_of_append hd hstack a)]
  exact deliver_of_popped hd hs hstack rfl a _

theorem exec_not_register (hd : s.config.dialect = .register) (ha : a.toNat < 8) (b : Field) :
    exec (.not a b) s = .next { s with
      regs := (incremented s).set a.toNat (aluNot (incremented s)[a.toNat]) } := by
  refine exec_of_effectOf_ok (fun _ => Nat.le_of_lt_succ ha) ?_
  rw [effectOf_not_of_operand (operand_advancePc_register hd ha)]
  exact deliver_advancePc_register hd ha _

end

end Sys2Proof.Machine

namespace Sys2Proof.Proofs

open Sys2Proof.Machine Sys2Proof.Spec

/-- Settles O8: NOT delivers the complement in place of its one operand, and its register field is checked in the
register dialect alone. -/
theorem notComplements : Obligations.NotComplements := by
  have hword (v : Word) : BitVec.ofNat 16 (65535 - v.toNat) = aluNot v := (eq_ofNat_of_toNat (toNat_aluNot v)).symm
  refine ⟨fun _ _ => rfl, fun s a b hd hs => ⟨fun base v hstack => ?_, fun hempty => ?_⟩,
    fun s a b hd => ⟨fun ha => ?_, fun ha => ?_⟩⟩
  · rw [hword]
    exact exec_not_stack_of_append hd hs hstack a b
  · exact exec_of_effectOf_error (fieldBounds_not_stack hd a b) (k := .stackUnderflow)
      (effectOf_not_of_operand_error (operand_advancePc_of_empty hd hempty a))
  · rw [hword]
    exact exec_not_register hd ha b
  · exact exec_of_not_fieldBounds nofun fun hbounds => absurd (hbounds hd) (Nat.not_le.2 ha)

/-- Settles O9: the sum and the product of words are those of their values modulo 65536. -/
theorem addAndMultWrap : Obligations.AddAndMultWrap :=
  ⟨BinaryOperator.add.binaryRule toNat_aluAdd, BinaryOperator.mult.binaryRule toNat_aluMult⟩

/-- Settles O10: the bitwise operators act alike on words and on their values; XOR alone has an availability. -/
theorem andOrXorAreBitwise : Obligations.AndOrXorAreBitwise :=
  ⟨BinaryOperator.and.binaryRule toNat_aluAnd, BinaryOperator.or.binaryRule toNat_aluOr,
    BinaryOperator.xor.binaryRule toNat_aluXor⟩

/-- Settles O11: a shift is a product or a quotient by the power of two of the whole amount. -/
theorem shiftsUseTheWholeAmount : Obligations.ShiftsUseTheWholeAmount :=
  ⟨BinaryOperator.lshift.binaryRule toNat_aluLshift, BinaryOperator.rshift.binaryRule toNat_aluRshift⟩

/-- Settles O12: a comparison of words is that of their values, delivered as 1 or 0. -/
theorem comparisonsYieldZeroOrOne : Obligations.ComparisonsYieldZeroOrOne :=
  ⟨BinaryOperator.equals.binaryRule toNat_aluEquals, BinaryOperator.lessthan.binaryRule toNat_aluLessthan⟩

end Sys2Proof.Proofs
end

section
/-! PROOF. Grid-addressed I/O (44_grid_io R180 to R182): the frame INPUT and OUTPUT share, which is the operand pair and
then one grid access; the outcome of the access from its guard; and from these the whole next state of both. -/

namespace Sys2Proof.Machine

open Sys2Proof.Spec

/-! ### The outcome of each grid access from its guard (20_memory R58, R59) -/

section

variable {t : State} {x y : Word}

theorem State.gridRead_of_inside (h : x.toNat < t.config.n ∧ y.toNat < t.config.n) :
    t.gridRead x y = .ok (t.gridInAt x.toNat y.toNat) := if_pos h

theorem State.gridWrite_of_inside (h : x.toNat < t.config.n ∧ y.toNat < t.config.n) (v : Word) :
    t.gridWrite x y v = .ok { t with gridOut := Memory.write t.gridOut (gridKey x.toNat y.toNat) v } := if_pos h

/-- Two coordinates, one of them at or above `N`, are not both inside. -/
theorem not_inside_of_outside (h : t.config.n ≤ x.toNat ∨ t.config.n ≤ y.toNat) :
    ¬ (x.toNat < t.config.n ∧ y.toNat < t.config.n) := by
  omega

theorem State.gridRead_of_outside (h : t.config.n ≤ x.toNat ∨ t.config.n ≤ y.toNat) :
    t.gridRead x y = .error .gridOutOfBounds := if_neg (not_inside_of_outside h)

theorem State.gridWrite_of_outside (h : t.config.n ≤ x.toNat ∨ t.config.n ≤ y.toNat) (v : Word) :
    t.gridWrite x y v = .error .gridOutOfBounds := if_neg (not_inside_of_outside h)

end

/-- A cell of the grid after a write of one cell, by coordinates: no two coordinate pairs share a key. -/
theorem Memory.read_write_gridKey {m : Memory} (hm : Memory.wf m) {x y x' y' : Nat} (hx : x < 65536)
    (hx' : x' < 65536) (v : Word) :
    Memory.read (Memory.write m (gridKey x y) v) (gridKey x' y') =
      if x' = x ∧ y' = y then v else Memory.read m (gridKey x' y') := by
  split_ifs with h
  · obtain ⟨rfl, rfl⟩ := h
    exact Memory.read_write_same hm _ v
  · refine Memory.read_write_ne (fun hkey => h ?_) v
    obtain ⟨rfl, rfl⟩ := gridKey_inj hx hx' hkey
    exact ⟨rfl, rfl⟩

/-! ### The coordinates (44_grid_io R181) -/

/-- Where `tos` counts the stack (10_state R28), it counts what the pop of both coordinates leaves. -/
theorem operandPair_advancePc_stack {s : State} (hd : s.config.dialect = .stack) (htos : s.tos = s.stack.length)
    {base : List Word} {xc y : Word} (h : s.stack = base ++ [xc, y]) (a b : Field) :
    operandPair a b s.advancePc = .ok (xc, y, s.advancePc.withStack base base.length) := by
  have hcount : s.tos - 2 = base.length := by
    rw [htos, h, List.length_append]
    rfl
  rw [operandPair_stack (t := s.advancePc) hd h, State.advancePc_tos, hcount]
  rfl

/-! ### The frame of INPUT and OUTPUT -/

/-- `mk` is an instruction of grid I/O: it is available in every configuration, its fields hold registers in the
register dialect alone, and its effect is `access` at the coordinates of the operand pair. -/
structure GridInstruction (mk : Field → Field → Instr) (access : Word → Word → State → Except FaultKind State) :
    Prop where
  opcode_ne_xor : ∀ a b, (mk a b).opcode ≠ .xor
  fieldBounds_iff : ∀ c a b, (mk a b).fieldBounds c ↔ (c.dialect = .register → a.toNat ≤ 7 ∧ b.toNat ≤ 7)
  effectOf_eq : ∀ a b t, effectOf (mk a b) t = operandPair a b t >>= fun (xc, y, u) => access xc y u

namespace GridInstruction

theorem input : GridInstruction .input fun xc y t => t.gridRead xc y >>= fun v => .ok (t.setReg 2 v) where
  opcode_ne_xor := nofun
  fieldBounds_iff _ _ _ := .rfl
  effectOf_eq _ _ _ := rfl

theorem output : GridInstruction .output fun xc y t => t.gridWrite xc y (t.reg 2) where
  opcode_ne_xor := nofun
  fieldBounds_iff _ _ _ := .rfl
  effectOf_eq _ _ _ := rfl

variable {mk : Field → Field → Instr} {access : Word → Word → State → Except FaultKind State} {s t u : State}
  {a b : Field} {xc y : Word} {rest : List Word} {tos : Nat}

theorem effectOf_of_operandPair (h : GridInstruction mk access) (hpair : operandPair a b t = .ok (xc, y, u)) :
    effectOf (mk a b) t = access xc y u := by
  rw [h.effectOf_eq, hpair]
  rfl

theorem fieldBounds_stack (h : GridInstruction mk access) (hd : s.config.dialect = .stack) (a b : Field) :
    (mk a b).fieldBounds s.config :=
  (h.fieldBounds_iff _ _ _).2 fun hr => absurd (hd.symm.trans hr) (by decide)

theorem fieldBounds_of_inRange (h : GridInstruction mk access) (ha : a.toNat < 8) (hb : b.toNat < 8) :
    (mk a b).fieldBounds s.config :=
  (h.fieldBounds_iff _ _ _).2 fun _ => ⟨Nat.le_of_lt_succ ha, Nat.le_of_lt_succ hb⟩

theorem exec_stack_of_lt_two (h : GridInstruction mk access) (hd : s.config.dialect = .stack)
    (hlt : s.stack.length < 2) (a b : Field) : exec (mk a b) s = .next (recorded s 4) := by
  refine exec_of_effectOf_error (h.fieldBounds_stack hd a b) (k := .stackUnderflow) ?_
  rw [h.effectOf_eq, operandPair_underflow (t := s.advancePc) hd hlt]
  rfl

theorem exec_register_of_outOfRange (h : GridInstruction mk access) (hd : s.config.dialect = .register)
    (hout : 8 ≤ a.toNat ∨ 8 ≤ b.toNat) : exec (mk a b) s = .next (recorded s 3) :=
  exec_of_not_fieldBounds (h.opcode_ne_xor a b) fun hbounds =>
    not_both_le_of_outOfRange hout ((h.fieldBounds_iff _ a b).1 hbounds hd)

/-! ### INPUT and OUTPUT at given coordinates (44_grid_io R181, R182) -/

/-- The access sees the incremented PC and the popped stack, and `x[2]` is written last. -/
theorem inputAt_of_operandPair (hbounds : (Instr.input a b).fieldBounds s.config)
    (hpair : operandPair a b s.advancePc = .ok (xc, y, s.advancePc.withStack rest tos)) :
    InputAt s (.input a b) rest tos xc y := by
  have heffect := input.effectOf_of_operandPair hpair
  refine ⟨fun hin => exec_of_effectOf_ok hbounds ?_,
    fun hout => exec_of_effectOf_error hbounds (k := .gridOutOfBounds) ?_⟩
  · rw [heffect, State.gridRead_of_inside (by exact hin)]
    rfl
  · rw [heffect, State.gridRead_of_outside (by exact hout)]
    rfl

/-- The increment of the PC leaves `x[2]`, and the write of one cell leaves every other. -/
theorem outputAt_of_operandPair (hs : s.Inv) (hbounds : (Instr.output a b).fieldBounds s.config)
    (hpair : operandPair a b s.advancePc = .ok (xc, y, s.advancePc.withStack rest tos)) :
    OutputAt s (.output a b) rest tos xc y := by
  have heffect := output.effectOf_of_operandPair hpair
  refine ⟨fun hin => ⟨Memory.write s.gridOut (gridKey xc.toNat y.toNat) s.regs[2], exec_of_effectOf_ok hbounds ?_,
      fun x' y' hx' _ => ?_⟩,
    fun hout => exec_of_effectOf_error hbounds (k := .gridOutOfBounds) ?_⟩
  · have hreg : (s.advancePc.withStack rest tos).reg 2 = s.regs[2] := s.reg_advancePc_ne (by decide)
    rw [heffect, State.gridWrite_of_inside (by exact hin), hreg]
    rfl
  · exact Memory.read_write_gridKey hs.gridOut_wf xc.isLt (hx'.trans_le hs.side.2) _
  · rw [heffect, State.gridWrite_of_outside (by exact hout)]

end GridInstruction

end Sys2Proof.Machine

namespace Sys2Proof.Proofs

open Sys2Proof.Machine Sys2Proof.Spec

/-- Settles O13: the coordinates are popped or read from registers before `x[2]` gets the cell they name, and a fault
of the fields, the pops or the coordinates discards both. -/
theorem inputReadsGridCell : Obligations.InputReadsGridCell := by
  have hinput := GridInstruction.input
  refine ⟨fun _ _ => rfl, fun s a b hd htos => ⟨fun base xc y hstack => ?_, fun hlt => ?_⟩,
    fun s a b hd => ⟨fun ha hb => ?_, fun hout => ?_⟩⟩
  · exact GridInstruction.inputAt_of_operandPair (hinput.fieldBounds_stack hd a b)
      (operandPair_advancePc_stack hd htos hstack a b)
  · exact hinput.exec_stack_of_lt_two hd hlt a b
  · exact GridInstruction.inputAt_of_operandPair (hinput.fieldBounds_of_inRange ha hb)
      (operandPair_advancePc_register hd ha hb)
  · exact hinput.exec_register_of_outOfRange hd hout

/-- Settles O14: the coordinates are those of INPUT, and the invariant bounds them and keeps the output grid in the form
in which a written cell reads back. -/
theorem outputWritesOneGridCell : Obligations.OutputWritesOneGridCell := by
  have houtput := GridInstruction.output
  refine ⟨fun _ _ => rfl, fun s a b hd hs => ⟨fun base xc y hstack => ?_, fun hlt => ?_⟩,
    fun s a b hd hs => ⟨fun ha hb => ?_, fun hout => ?_⟩⟩
  · exact GridInstruction.outputAt_of_operandPair hs (houtput.fieldBounds_stack hd a b)
      (operandPair_advancePc_stack hd hs.counter hstack a b)
  · exact houtput.exec_stack_of_lt_two hd hlt a b
  · exact GridInstruction.outputAt_of_operandPair hs (houtput.fieldBounds_of_inRange ha hb)
      (operandPair_advancePc_register hd ha hb)
  · exact houtput.exec_register_of_outOfRange hd hout

end Sys2Proof.Proofs
end

section
/-! PROOF. Which fault is raised where (60_exceptions R202, R205, R210): the words that are not decodable, what a step
that raises a fault leaves, and the kinds that each instruction can raise, found by inverting its effect. -/

namespace Sys2Proof

/-! ### Words that are not decodable (30_encoding R85) -/

/-- The numbers of no opcode are 0 and those above the last one. -/
theorem Opcode.eq_zero_or_le_of_ofNumber_eq_none {n : BitVec 8} (h : Opcode.ofNumber n = none) :
    n = 0 ∨ 0x14 ≤ n.toNat := by
  refine or_iff_not_imp_left.2 fun hne => Nat.le_of_not_lt fun hlt => ?_
  have hpos : 0 < n.toNat := Nat.pos_of_ne_zero fun h0 => hne (BitVec.eq_of_toNat_eq h0)
  unfold Opcode.ofNumber at h
  interval_cases n.toNat <;> cases h

theorem illegalOp_of_decode_error (c : Config) {w : InstrWord} {e : DecodeRefusal} (h : decode w = .error e) :
    Spec.illegalOp c w := by
  cases hop : Opcode.ofNumber (InstrWord.op w) with
  | some op => cases (decode_of_ofNumber_eq_some hop).symm.trans h
  | none => exact (Opcode.eq_zero_or_le_of_ofNumber_eq_none hop).imp_right .inl

/-- A word that decodes is illegal exactly where its instruction is not available. -/
theorem illegalOp_iff_of_decode (c : Config) {w : InstrWord} {i : Instr} (h : decode w = .ok i) :
    Spec.illegalOp c w ↔ decodable c i.opcode = false :=
  encode_of_decode h ▸ illegalOp_encode_iff c i

end Sys2Proof

namespace Sys2Proof.Machine

open Sys2Proof.Spec

/-! ### The record after an instruction (60_exceptions R202, R205) -/

section

variable {i : Instr} {s t : State}

/-- UnrecognizedInstruction is raised by the availability check alone. -/
theorem faultCode_ne_two_of_exec (hd : decodable s.config i.opcode = true) (hc : s.faultCode = 0)
    (h : exec i s = .next t) : t.faultCode ≠ 2 := by
  rcases faultCode_of_exec h with he | ⟨hd', _⟩ | ⟨_, he⟩ | hle
  · rw [he, hc]; decide
  · simp [hd] at hd'
  · rw [he]; decide
  · intro he; simp [he] at hle

/-- A completed effect leaves `FAULTED` at 0. -/
theorem faulted_ne_true_of_effectOf (hs : s.faulted = false) (h : effectOf i s.advancePc = .ok t) :
    t.faulted ≠ true := by
  have hclear : t.faulted = false :=
    (State.record_keptByOps fun faulted _ => faulted = false).effectOf (t := s.advancePc) hs h
  simp [hclear]

/-- An instruction that ends in a fault has changed the fault record alone. -/
theorem exists_takeFault_of_exec (hs : s.faulted = false) (h : exec i s = .next t) (ht : t.faulted = true) :
    ∃ k, t = s.takeFault k := by
  obtain hfault | ⟨_, hu⟩ := of_exec_eq_next h
  · exact hfault
  · exact absurd ht (faulted_ne_true_of_effectOf hs hu)

end

/-! ### What a faulting operation ran into (60_exceptions R204, R207, R208) -/

section

variable {t : State} {a b : Field} {v : Word} {k : FaultKind}

/-- A sequence of two operations raises the fault of one of them. -/
theorem bind_eq_error {α β : Type} {x : Except FaultKind α} {f : α → Except FaultKind β}
    (h : (x >>= f) = .error k) : x = .error k ∨ ∃ v, x = .ok v ∧ f v = .error k := by
  cases x with
  | error k' => cases h; exact .inl rfl
  | ok v => exact .inr ⟨v, rfl, h⟩

theorem State.of_pop_eq_error (h : t.pop = .error k) : k = .stackUnderflow := by
  rcases t.pop_cases with ⟨_, hp⟩ | ⟨_, _, _, hp⟩ <;> cases hp.symm.trans h
  rfl

theorem State.of_push_eq_error (h : t.push v = .error k) :
    t.config.stackCapacity = some t.stack.length ∧ k = .stackOverflow := by
  rcases t.push_cases v with ⟨hfull, hp⟩ | ⟨_, hp⟩ <;> cases hp.symm.trans h
  exact ⟨hfull, rfl⟩

theorem State.of_memRead_eq_error {addr : Nat} (h : t.memRead addr = .error k) : k = .stackUnderflow := by
  rcases t.memRead_cases addr with ⟨_, hp⟩ | ⟨_, hp⟩ <;> cases hp.symm.trans h
  rfl

theorem State.of_memWrite_eq_error {addr : Nat} (h : t.memWrite addr v = .error k) : k = .stackUnderflow := by
  rcases t.memWrite_cases addr v with ⟨_, hp⟩ | ⟨_, hp⟩ <;> cases hp.symm.trans h
  rfl

theorem State.of_gridRead_eq_error {x y : Word} (h : t.gridRead x y = .error k) : k = .gridOutOfBounds := by
  rcases t.gridRead_cases x y with ⟨_, hp⟩ | ⟨_, hp⟩ <;> cases hp.symm.trans h
  rfl

theorem State.of_gridWrite_eq_error {x y : Word} (h : t.gridWrite x y v = .error k) : k = .gridOutOfBounds := by
  rcases t.gridWrite_cases x y v with ⟨_, hp⟩ | ⟨_, hp⟩ <;> cases hp.symm.trans h
  rfl

/-- Reading one operand can only underflow, in the stack dialect. -/
theorem of_operand_eq_error (h : operand a t = .error k) : t.config.dialect = .stack ∧ k = .stackUnderflow := by
  cases hd : t.config.dialect with
  | stack => exact ⟨rfl, State.of_pop_eq_error ((operand_stack hd a).symm.trans h)⟩
  | register => cases (operand_register hd a).symm.trans h

/-- What reading two operands in the stack dialect can do. -/
theorem operandPair_stack_cases (hd : t.config.dialect = .stack) (a b : Field) :
    operandPair a b t = .error .stackUnderflow ∨
    ∃ base first second, t.stack = base ++ [first, second] ∧
      operandPair a b t = .ok (first, second, { t with stack := base, tos := t.tos - 2 }) := by
  rcases List.eq_nil_or_concat t.stack with hs | ⟨rest, second, hs⟩
  · exact .inl (operandPair_underflow hd (by simp [hs]) a b)
  · rcases List.eq_nil_or_concat rest with rfl | ⟨base, first, rfl⟩
    · exact .inl (operandPair_underflow hd (by simp [hs]) a b)
    · have hs' : t.stack = base ++ [first, second] := by simp [hs]
      exact .inr ⟨base, first, second, hs', operandPair_stack hd hs' a b⟩

/-- Reading two operands can only underflow, in the stack dialect. -/
theorem of_operandPair_eq_error (h : operandPair a b t = .error k) :
    t.config.dialect = .stack ∧ k = .stackUnderflow := by
  cases hd : t.config.dialect with
  | stack =>
    rcases operandPair_stack_cases hd a b with hp | ⟨_, _, _, _, hp⟩ <;> cases hp.symm.trans h
    exact ⟨rfl, rfl⟩
  | register => cases (operandPair_register hd a b).symm.trans h

/-- The delivery of a result can only overflow, in the stack dialect and with a finite capacity. -/
theorem of_deliver_eq_error (h : deliver a v t = .error k) :
    t.config.dialect = .stack ∧ t.config.stackCapacity = some t.stack.length ∧ k = .stackOverflow := by
  cases hd : t.config.dialect with
  | stack => exact ⟨rfl, State.of_push_eq_error ((deliver_stack hd a v).symm.trans h)⟩
  | register => cases (deliver_register hd a v).symm.trans h

/-- The delivery of NOT's result takes the place of the operand, so NOT can only underflow. -/
theorem of_effectOf_not_eq_error (hs : StackSound t) (h : effectOf (.not a b) t = .error k) :
    t.config.dialect = .stack ∧ k = .stackUnderflow := by
  obtain hoperand | ⟨⟨v, u⟩, hoperand, hdeliver⟩ := bind_eq_error h
  · exact of_operand_eq_error hoperand
  · cases hd : t.config.dialect with
    | stack =>
      obtain ⟨base, hstack, rfl⟩ := State.of_pop_eq_ok ((operand_stack hd a).symm.trans hoperand)
      obtain ⟨_, hfull, _⟩ := of_deliver_eq_error hdeliver
      exact absurd hfull (stackCapacity_ne_of_popped hs hstack nofun)
    | register =>
      cases (operand_register hd a).symm.trans hoperand
      cases (deliver_register hd a _).symm.trans hdeliver

/-- The delivery of a binary operator's result takes the place of its operands, so the operator can only underflow. -/
theorem of_binaryEffect_eq_error {f : Word → Word → Word} (hs : StackSound t) (h : binaryEffect f a b t = .error k) :
    t.config.dialect = .stack ∧ k = .stackUnderflow := by
  obtain hpair | ⟨⟨lhs, rhs, u⟩, hpair, hdeliver⟩ := bind_eq_error h
  · exact of_operandPair_eq_error hpair
  · cases hd : t.config.dialect with
    | stack =>
      rcases operandPair_stack_cases hd a b with hp | ⟨base, _, _, hstack, hp⟩ <;> cases hp.symm.trans hpair
      obtain ⟨_, hfull, _⟩ := of_deliver_eq_error hdeliver
      exact absurd hfull (stackCapacity_ne_of_popped hs hstack nofun)
    | register =>
      cases (operandPair_register hd a b).symm.trans hpair
      cases (deliver_register hd a _).symm.trans hdeliver

end

/-! ### The table of 60_exceptions R210 -/

theorem FaultKind.code_eq_two_iff (k : FaultKind) : k.code = 2 ↔ k = .unrecognizedInstruction := by
  cases k <;> decide

theorem FaultKind.code_eq_six_iff (k : FaultKind) : k.code = 6 ↔ k = .stackOverflow := by
  cases k <;> decide

/-- The table lists `k` for instruction `i` in configuration `c`, and the parameter that `k` depends on permits it. -/
structure FaultKind.Listed (c : Config) (i : Instr) (k : FaultKind) : Prop where
  mem : k.code ∈ faultCodes c.dialect i
  bounded : k = .stackOverflow → c.stackCapacity ≠ none
  unavailable : k = .unrecognizedInstruction → c.xorInRegister = false

namespace FaultKind.Listed

variable {c : Config} {i : Instr} {t : State} {k : FaultKind}

theorem stackUnderflow (h : 4 ∈ faultCodes c.dialect i) : Listed c i .stackUnderflow := ⟨h, nofun, nofun⟩

theorem gridOutOfBounds (h : 5 ∈ faultCodes c.dialect i) : Listed c i .gridOutOfBounds := ⟨h, nofun, nofun⟩

theorem stackOverflow {n : Nat} (hfull : c.stackCapacity = some n) (h : 6 ∈ faultCodes c.dialect i) :
    Listed c i .stackOverflow :=
  ⟨h, fun _ hnone => Option.some_ne_none n (hfull.symm.trans hnone), nofun⟩

/-- XOR alone can be unavailable, in the register dialect (R202). -/
theorem of_undecodable (h : decodable c i.opcode = false) : Listed c i .unrecognizedInstruction := by
  obtain ⟨hop, hd, hx⟩ := (decodable_eq_false_iff c i.opcode).1 h
  refine ⟨?_, nofun, fun _ => hx⟩
  cases i with
  | xor a b => rw [hd]; exact .tail _ (.head _)
  | _ => cases hop

/-- Every instruction with a register-role field has RegisterOutOfRange in its row (R203). -/
theorem of_mem_registerFields {f : Field} (h : f ∈ registerFields c.dialect i) : Listed c i .registerOutOfRange := by
  refine ⟨?_, nofun, nofun⟩
  cases hd : c.dialect with
  | register => cases i <;> exact .head _
  | stack =>
    rw [hd] at h
    cases i with
    | push | pop | load | store | copy | jumpif => exact .head _
    | _ => cases h

theorem of_outOfRange (h : registersInRange c i = false) : Listed c i .registerOutOfRange := by
  by_contra hk
  have hall : ∀ f ∈ registerFields c.dialect i, f.toNat ≤ 7 := fun f hf => absurd (of_mem_registerFields hf) hk
  exact absurd ((registersInRange_iff c i).2 hall) (by simp [h])

/-- What the effect of an instruction can raise is in its row. -/
theorem of_effectOf (hs : StackSound t) (h : effectOf i t = .error k) : Listed t.config i k := by
  cases i with
  | const a b =>
    obtain ⟨hd, hfull, rfl⟩ := of_deliver_eq_error h
    exact .stackOverflow hfull (by simp [faultCodes, hd])
  | push a b =>
    obtain ⟨hfull, rfl⟩ := State.of_push_eq_error h
    exact .stackOverflow hfull (by simp [faultCodes])
  | pop a b =>
    obtain hpop | ⟨_, _, hok⟩ := bind_eq_error h
    · cases State.of_pop_eq_error hpop
      exact .stackUnderflow (by simp [faultCodes])
    · cases hok
  | load a b =>
    obtain hread | ⟨_, _, hok⟩ := bind_eq_error h
    · cases State.of_memRead_eq_error hread
      exact .stackUnderflow (by simp [faultCodes])
    · cases hok
  | store a b =>
    cases State.of_memWrite_eq_error h
    exact .stackUnderflow (by simp [faultCodes])
  | copy a b => cases h
  | jumpif a b =>
    obtain hoperand | ⟨_, _, hok⟩ := bind_eq_error h
    · obtain ⟨hd, rfl⟩ := of_operand_eq_error hoperand
      exact .stackUnderflow (by simp [faultCodes, hd])
    · cases hok
  | not a b =>
    obtain ⟨hd, rfl⟩ := of_effectOf_not_eq_error hs h
    exact .stackUnderflow (by simp [faultCodes, hd])
  | add a b | mult a b | and a b | or a b | xor a b | lshift a b | rshift a b | equals a b | lessthan a b =>
    obtain ⟨hd, rfl⟩ := of_binaryEffect_eq_error hs h
    exact .stackUnderflow (by simp [faultCodes, hd])
  | input a b =>
    obtain hpair | ⟨_, _, hrest⟩ := bind_eq_error h
    · obtain ⟨hd, rfl⟩ := of_operandPair_eq_error hpair
      exact .stackUnderflow (by simp [faultCodes, hd])
    · obtain hread | ⟨_, _, hok⟩ := bind_eq_error hrest
      · cases State.of_gridRead_eq_error hread
        exact .gridOutOfBounds (by cases hd : t.config.dialect <;> simp [faultCodes])
      · cases hok
  | output a b =>
    obtain hpair | ⟨_, _, hwrite⟩ := bind_eq_error h
    · obtain ⟨hd, rfl⟩ := of_operandPair_eq_error hpair
      exact .stackUnderflow (by simp [faultCodes, hd])
    · cases State.of_gridWrite_eq_error hwrite
      exact .gridOutOfBounds (by cases hd : t.config.dialect <;> simp [faultCodes])

/-- What an instruction raises, in its decode checks or in its effect, is in its row. -/
theorem of_exec {s : State} (hf : s.faulted = false) (hs : StackSound s) (h : exec i s = .next t)
    (ht : t.faulted = true) : ∃ k, t.faultCode = k.code ∧ Listed s.config i k := by
  rcases exec_cases i s with ⟨hd, hk⟩ | ⟨_, hr, hk⟩ | ⟨_, k, he, hk⟩ | ⟨_, u, hu, hk⟩ <;> cases hk.symm.trans h
  · exact ⟨_, rfl, of_undecodable hd⟩
  · exact ⟨_, rfl, of_outOfRange hr⟩
  · exact ⟨k, rfl, of_effectOf (t := s.advancePc) hs he⟩
  · exact absurd ht (faulted_ne_true_of_effectOf hf hu)

end FaultKind.Listed

end Sys2Proof.Machine

namespace Sys2Proof.Proofs

open Sys2Proof.Machine

/-- Settles O21: a word that does not decode has an illegal opcode field, and one that decodes is illegal where its
instruction is not available; nothing else raises code 2. -/
theorem unrecognizedWordsFault : Obligations.UnrecognizedWordsFault := by
  refine ⟨fun s w hf hc hw => ?_, fun _ a b => .inl (op_loadTriple_none a b)⟩
  cases hd : decode w with
  | error e =>
    exact ⟨fun _ => step_of_nextInstr_error hf (nextInstr_of_decode_error hw hd),
      fun hlegal => absurd (illegalOp_of_decode_error s.config hd) hlegal⟩
  | ok i =>
    rw [illegalOp_iff_of_decode s.config hd, step_of_nextInstr_ok hf (nextInstr_of_decode hw hd)]
    exact ⟨exec_of_undecodable (s := s.takeRequest), fun hlegal t h =>
      faultCode_ne_two_of_exec (s := s.takeRequest) (Bool.eq_true_of_not_eq_false hlegal) hc h⟩

/-- Settles O31: a fault of the fetch or of decode is taken on the state before, and so is one of an instruction, whose
completed effect leaves `FAULTED` as it was. -/
theorem faultsArePrecise : Obligations.FaultsArePrecise := by
  intro s t hf h ht
  rcases step_cases s with ⟨hf', _⟩ | ⟨_, k, _, hk⟩ | ⟨_, i, _, hk⟩
  · exact absurd (hf.symm.trans hf') Bool.false_ne_true
  · cases hk.symm.trans h
    exact ⟨k, rfl⟩
  · exact exists_takeFault_of_exec (s := s.takeRequest) hf (hk.symm.trans h) ht

/-- Settles O33: the kind raised is listed in the instruction's row, and codes 6 and 2 are of one kind each. -/
theorem faultsOfEachInstruction : Obligations.FaultsOfEachInstruction := by
  intro s t i hf hs h ht
  obtain ⟨k, hcode, hk⟩ := FaultKind.Listed.of_exec hf hs h ht
  rw [hcode, k.code_eq_six_iff, k.code_eq_two_iff]
  exact ⟨hk.mem, hk.bounded, hk.unavailable⟩

end Sys2Proof.Proofs
end

section
/-! PROOF. The transactions that change the state (60_exceptions R206, R219, R220): the reply to a step from its next
state, every request but Construct made of a faulted core, Construct, and the injected jump of a halted core. -/

namespace Sys2Proof.Machine

/-! ### The reply to a step (R220) -/

section

variable {s t : State}

theorem stepReply_state (s t : State) : (stepReply s (.next t)).2 = t := by
  rw [stepReply]
  split_ifs <;> rfl

theorem stepReply_of_faulted (hs : s.faulted = true) : stepReply s (.next t) = (.refused, t) := if_pos hs

theorem stepReply_of_fault (hs : s.faulted = false) (ht : t.faulted = true) :
    stepReply s (.next t) = (.fault t.faultCode, t) := by
  simp [stepReply, hs, ht]

theorem stepReply_of_completed (hs : s.faulted = false) (ht : t.faulted = false) :
    stepReply s (.next t) = (.ok, t) := by
  simp [stepReply, hs, ht]

/-- The reply to a step and the state after it, as the step went. -/
theorem stepReply_outcome (s t : State) :
    (stepReply s (.next t)).2 = t ∧
    (s.faulted = true → (stepReply s (.next t)).1 = .refused) ∧
    (s.faulted = false → t.faulted = true → (stepReply s (.next t)).1 = .fault t.faultCode) ∧
    (s.faulted = false → t.faulted = false → (stepReply s (.next t)).1 = .ok) :=
  ⟨stepReply_state s t, fun hs => congrArg Prod.fst (stepReply_of_faulted hs),
    fun hs ht => congrArg Prod.fst (stepReply_of_fault hs ht),
    fun hs ht => congrArg Prod.fst (stepReply_of_completed hs ht)⟩

theorem transact_step (h : step s.takeRequest = .next t) : transact .step s = stepReply s (.next t) := by
  rw [transact, h]

theorem transact_stepWith {ins : ProgramItem} (h : stepWith ins.toWord s = .next t) :
    transact (.stepWith ins) s = stepReply s (.next t) := by
  rw [transact, h]

/-! ### The requests of a faulted core (R206) -/

/-- Step is refused, with the supplied instruction consumed. -/
theorem transact_step_of_faulted (hf : s.faulted = true) : transact .step s = (.refused, s.takeRequest) :=
  (transact_step (step_of_faulted (s := s.takeRequest) hf)).trans (stepReply_of_faulted hf)

/-- StepWith is refused, with the supplied instruction consumed. -/
theorem transact_stepWith_of_faulted (hf : s.faulted = true) (ins : ProgramItem) :
    transact (.stepWith ins) s = (.refused, s.takeRequest) :=
  (transact_stepWith (step_of_faulted (by exact hf))).trans (stepReply_of_faulted hf)

/-- No request but Construct does more to a faulted core than consume a supplied instruction. -/
theorem transact_state_of_faulted {r : Request} (hf : s.faulted = true) (hr : ∀ args, r ≠ .construct args) :
    (transact r s).2 = s ∨ (transact r s).2 = s.takeRequest := by
  cases r with
  | construct args => exact absurd rfl (hr args)
  | step => exact .inr (congrArg Prod.snd (transact_step_of_faulted hf))
  | stepWith ins => exact .inr (congrArg Prod.snd (transact_stepWith_of_faulted hf ins))
  | readReg | readHost | writeHost => exact .inl rfl
  | readStack i | readGridOut x y =>
    left
    rw [transact]
    split <;> rfl

/-- Any number of steps leaves a faulted core with nothing supplied. -/
theorem run_of_faulted (hf : s.faulted = true) (hs : s.supplied = none) (k : Nat) :
    Sys2Proof.core.run k s = .next s := by
  have hstep : step s = .next s := by rw [step_of_faulted hf, State.takeRequest_of_none hs]
  induction k with
  | zero => rfl
  | succ k ih => exact (run_succ_of_step Sys2Proof.core hstep).trans ih

end

/-! ### Construct (R220) -/

theorem transact_construct_of_some {args : ConstructArgs} {t : State} (h : construct args = some t) (s : State) :
    transact (.construct args) s = (.nothing, t) := by
  rw [transact, h]

theorem transact_construct_of_none {args : ConstructArgs} (h : construct args = none) (s : State) :
    transact (.construct args) s = (.refused, s) := by
  rw [transact, h]

/-! ### The injected jump (R219) -/

/-- In the register dialect CONST into register 0 is a jump: it writes the PC after the increment. -/
theorem exec_const_zero {s : State} (hd : s.config.dialect = .register) (k : Word) :
    exec (.const 0 k) s = .next (s.advancePc.setReg 0 k) :=
  exec_of_effectOf_ok (fun _ => Nat.zero_le _) (deliver_register (t := s.advancePc) hd 0 k)

/-- A halted core has no fault (00_scope R15). -/
theorem State.faulted_of_halted {s : State} (h : s.halted = true) : s.faulted = false := by
  rw [State.halted, Bool.and_eq_true, Bool.not_eq_true', Bool.not_eq_true'] at h
  exact h.2

end Sys2Proof.Machine

namespace Sys2Proof.Proofs

open Sys2Proof.Machine

/-- Settles O32: a step of a faulted core consumes the supplied instruction at most, so with none it changes nothing,
and the other requests but Construct are reads or are refused. -/
theorem faultsAreFinal : Obligations.FaultsAreFinal := by
  refine ⟨fun s k hf hs => run_of_faulted hf hs k, fun s ins hf hs => ?_, fun s r hf hr => ?_⟩
  · rw [transact_step_of_faulted hf, transact_stepWith_of_faulted hf, State.takeRequest_of_none hs]
    exact ⟨rfl, rfl⟩
  · rcases transact_state_of_faulted hf hr with h | h <;> rw [h] <;> exact ⟨hf, rfl⟩

/-- Settles O43: both transactions answer the reply to the next state of their step. -/
theorem stepRepliesTellTheOutcome : Obligations.StepRepliesTellTheOutcome := by
  refine ⟨fun s t h => ?_, fun s t ins h => ?_⟩
  · rw [transact_step h]
    exact stepReply_outcome s t
  · rw [transact_stepWith h]
    exact stepReply_outcome s t

/-- Settles O45: the word injected is that of CONST, whose write of `x[0]` is a jump into the program. -/
theorem injectionRevivesHaltedCore : Obligations.InjectionRevivesHaltedCore := by
  intro s k hhalted hs hd hk
  have hf : s.faulted = false := State.faulted_of_halted hhalted
  have hstep : stepWith (Spec.formatT 0x01 0 k) s = .next (s.advancePc.setReg 0 k) :=
    (stepWith_of_decode hs hf (decode_encode (.const 0 k))).trans (exec_const_zero hd k)
  have hpc : (s.advancePc.setReg 0 k).pc = k := s.advancePc.reg_setReg_same 0 k
  refine ⟨_, hstep, ?_, hf, hpc, rfl, rfl, fun r hr => ?_⟩
  · rw [State.runnable, hpc]
    exact decide_eq_true hk
  · calc (s.advancePc.setReg 0 k).reg r = s.advancePc.reg r := State.reg_setReg_ne _ hr.symm k
      _ = s.reg r := State.reg_advancePc_ne s hr

/-- Settles O47: Construct replaces the whole state where the loader accepts, and leaves it where it refuses. -/
theorem constructRepliesTellTheOutcome : Obligations.ConstructRepliesTellTheOutcome :=
  fun s _ => ⟨fun _ h => transact_construct_of_some h s, fun h => transact_construct_of_none h s⟩

end Sys2Proof.Proofs
end

section
/-! PROOF. Construct as the only reset (70_reset_and_hazards R240 to R242): exactly the legal data are accepted, the
entry point is instruction 0, and an all-zero input grid loads as the empty memory. -/

namespace Sys2Proof.Machine

/-! ### What Construct answers (R240, R242) -/

/-- Legal data are accepted, and leave the initial state. -/
theorem construct_of_legal {c : ConstructArgs} (hc : c.Legal) :
    construct c = some (State.initial c.config (c.program.map ProgramItem.toWord) (loadRows 0 c.gridIn [])) :=
  if_pos (c.accepted_iff.2 hc)

/-- Construct answers a state on legal data and on no other. -/
theorem exists_construct_eq_some_iff (c : ConstructArgs) : (∃ s, construct c = some s) ↔ c.Legal := by
  constructor
  · rintro ⟨s, h⟩
    obtain ⟨hc, _⟩ := of_construct_eq_some h
    exact hc
  · exact fun hc => ⟨_, construct_of_legal hc⟩

/-! ### The entry point (R241) -/

/-- The initial state stands at instruction 0, which exists when the program is not empty. -/
theorem runnable_initial_iff (c : Config) (prog : List InstrWord) (gridIn : Memory) :
    (State.initial c prog gridIn).runnable = true ↔ 0 < prog.length := by
  rw [State.runnable, decide_eq_true_eq, State.pc_eq, State.reg_initial]
  rfl

/-! ### An all-zero input grid -/

/-- A row of zeros loads as no listed cell. -/
theorem loadRow_eq_nil_of_zero {x y : Nat} {vs : List Int} (h : ∀ v ∈ vs, v = 0) : loadRow y x vs [] = [] := by
  induction vs generalizing x with
  | nil => rfl
  | cons v vs ih =>
    obtain ⟨rfl, hvs⟩ := List.forall_mem_cons.1 h
    exact ih hvs

/-- Rows of zeros load as no listed cell. -/
theorem loadRows_eq_nil_of_zero {y : Nat} {rows : List (List Int)} (h : ∀ row ∈ rows, ∀ v ∈ row, v = 0) :
    loadRows y rows [] = [] := by
  induction rows generalizing y with
  | nil => rfl
  | cons row rows ih =>
    obtain ⟨hrow, hrows⟩ := List.forall_mem_cons.1 h
    rw [loadRows, loadRow_eq_nil_of_zero hrow]
    exact ih hrows

/-- Legal data with an all-zero input grid leave the initial state with the empty memory as the input grid. -/
theorem construct_of_zero_grid {c : ConstructArgs} (hc : c.Legal) (hzero : ∀ row ∈ c.gridIn, ∀ v ∈ row, v = 0) :
    construct c = some (State.initial c.config (c.program.map ProgramItem.toWord) []) := by
  rw [construct_of_legal hc, loadRows_eq_nil_of_zero hzero]

end Sys2Proof.Machine

namespace Sys2Proof.Proofs

open Sys2Proof.Machine

/-- Settles O35: the listed conditions are those of legal data, which Construct accepts and no other. -/
theorem constructRefusesBadData : Obligations.ConstructRefusesBadData := by
  refine fun args => (exists_construct_eq_some_iff args).trans ⟨fun hc => ?_, ?_⟩
  · exact ⟨hc.side, hc.length, hc.rows, fun row hrow => ⟨hc.columns row hrow, hc.values row hrow⟩⟩
  · rintro ⟨hside, hlength, hrows, hgrid⟩
    exact ⟨hside, hlength, hrows, fun row hrow => (hgrid row hrow).1, fun row hrow => (hgrid row hrow).2⟩

/-- Settles O36: the constructed state is the initial one, and with an empty program its PC already stands at the end,
where a step raises HaltedMachine. -/
theorem entryPointIsZero : Obligations.EntryPointIsZero := by
  intro args s h
  obtain ⟨_, rfl⟩ := of_construct_eq_some h
  have hlength : (args.program.map ProgramItem.toWord).length = args.program.length := List.length_map _
  refine ⟨State.reg_initial _ _ _ 0, hlength ▸ runnable_initial_iff _ _ _, fun hempty => ?_⟩
  obtain ⟨hhalts, _⟩ := haltedStepRaisesHaltedMachine (State.initial _ _ _) rfl rfl
  exact hhalts ((hlength.trans hempty).trans_le (Nat.zero_le _))

/-- Settles O37: the data are legal, and the grid of zeros loads as the empty memory of State.reset. -/
theorem resetIsAConstruction : Obligations.ResetIsAConstruction := by
  refine construct_of_zero_grid ((ConstructArgs.accepted_iff _).1 (by decide)) fun row hrow v hv => ?_
  rw [List.eq_of_mem_replicate hrow] at hv
  exact List.eq_of_mem_replicate hv

end Sys2Proof.Proofs
end
